-- ==== Sys2Proof/Word.lean ====
section
/-! DEFINITION. The word types of the block: channel bytes, LED indices, fade levels, command and response
words (00_scope.md R5 fixed widths, R10 bit numbering). -/

namespace Sys2Proof

/-- A colour channel, the brightness, an opcode, a status code or a fault code: 8 bits (00_scope.md R5). -/
abbrev Byte := BitVec 8

/-- A command word or a response word: 64 bits, bit 63 most significant (R70, R80). -/
abbrev Word := BitVec 64

/-- The DATA field of a response word: 56 bits (R80). -/
abbrev Data := BitVec 56

/-- The IDX field of a command word: an unsigned LED index (R72, R75). -/
abbrev LedIndex := BitVec 16

/-- A stored fade level: a 2-bit field, of which the value 3 is illegal (R25). -/
abbrev Level := BitVec 2

/-- The FADE_RUN iteration counter ITER (R30). -/
abbrev Counter := BitVec 32

end Sys2Proof
end

