-- ==== Sys2Proof/Syntax.lean ====
section
/-! DEFINITION. The commands of the block, one constructor per row of spec/opcode_table.json (R77). -/

namespace Sys2Proof

/-- A decoded command (R77). Every operand is an unsigned field taken as is (R75), and its type has
exactly the field's width, so no term of this type is out of range. -/
inductive Instr where
  /-- NOP, format Z (R110). -/
  | nop
  /-- SET_COLOR idx, r, g, b, format C (R72, R111). -/
  | setColor (idx : LedIndex) (r g b : Byte)
  /-- SET_BRIGHTNESS lvl, format B (R74, R112). -/
  | setBrightness (lvl : Byte)
  /-- SEND, format Z (R115). -/
  | send
  /-- FADE_STEP, format Z (R145). -/
  | fadeStep
  /-- FADE_RUN, format Z (R146). -/
  | fadeRun
  /-- GET_COLOR idx, format I (R73, R113). -/
  | getColor (idx : LedIndex)
  /-- GET_BRIGHTNESS, format Z (R114). -/
  | getBrightness
  deriving DecidableEq, Repr

end Sys2Proof
end

