-- ==== Sys2Proof/WellFormed.lean ====
section
/-! DEFINITION. Well-formedness. A decoded command (`Instr`) carries its operands at the exact width of their
fields, so every `Instr` is well-formed by its type. What can be ill-formed is a source line: R83 says a number
outside its field's range is an assembly error. The lines of R83 and R84 and that check stand here. -/

namespace Sys2Proof

/-- A line of the assembly language, its operands as written (R83), with the pseudo-instructions of R84 and the
recorded host action on CANCEL. -/
inductive Asm where
  | nop
  | setColor (idx r g b : Nat)
  | setBrightness (lvl : Nat)
  | send
  | fadeStep
  | fadeRun
  | getColor (idx : Nat)
  | getBrightness
  /-- `.word <64-bit value>`: a raw command word. -/
  | word (w : Nat)
  /-- Pseudo-instruction `SET_ALL r, g, b` (R84). -/
  | setAll (r g b : Nat)
  /-- Pseudo-instruction `SHOW lvl` (R84). -/
  | showAt (lvl : Nat)
  /-- Pseudo-instruction `FADE_STEPS k` (R84). -/
  | fadeSteps (k : Nat)
  /-- Pseudo-instruction `CLEAR` (R84). -/
  | clear
  /-- `; host: CANCEL <- level`: a host action, not a command (R83). -/
  | hostCancel (level : Bool)
  deriving DecidableEq, Repr

/-- Every number is in its field's range: `<idx>` 0..65535, `<r>`, `<g>`, `<b>`, `<lvl>` 0..255, a raw word 64 bits
(R83). -/
def Asm.wellFormed : Asm → Bool
  | .nop | .send | .fadeStep | .fadeRun | .getBrightness | .clear | .fadeSteps _ | .hostCancel _ => true
  | .setColor idx r g b => idx < 65536 && r < 256 && g < 256 && b < 256
  | .setBrightness lvl => lvl < 256
  | .getColor idx => idx < 65536
  | .word w => w < 2 ^ 64
  | .setAll r g b => r < 256 && g < 256 && b < 256
  | .showAt lvl => lvl < 256

end Sys2Proof
end

