-- ==== Sys2Proof/Decode.lean ====
section
/-! DEFINITION. Decoding a command word (R70-R79), total on every word and rejecting by name, and after it the
encoder, written from the same format tables. -/

namespace Sys2Proof

/-! ### Fields (R70-R75) -/

/-- `OPC = CMD[63:56]` (R70). -/
def opcField (w : Word) : Byte := w.extractLsb' 56 8

/-- `IDX = CMD[55:40]` (R75). -/
def idxField (w : Word) : LedIndex := w.extractLsb' 40 16

/-- `R = CMD[23:16]` (R75). -/
def redField (w : Word) : Byte := w.extractLsb' 16 8

/-- `G = CMD[15:8]` (R75). -/
def greenField (w : Word) : Byte := w.extractLsb' 8 8

/-- `B = CMD[7:0]` (R75). -/
def blueField (w : Word) : Byte := w.extractLsb' 0 8

/-- `LVL = CMD[7:0]` of format B (R75). -/
def levelField (w : Word) : Byte := w.extractLsb' 0 8

/-! ### The opcode map (R77) -/

/-- One row of the opcode map: a word `w` with `w AND mask = pattern` is this row's command, whose operands `read`
takes from the word. -/
structure Row where
  pattern : Word
  mask : Word
  read : Word → Instr

/-- The test of R76. -/
def Row.accepts (row : Row) (w : Word) : Bool := w &&& row.mask == row.pattern

/-- The opcode map of R77, match and mask as the spec writes them. -/
def opcodeMap : List Row := [
  ⟨0x0000000000000000, 0xFFFFFFFFFFFFFFFF, fun _ => .nop⟩,
  ⟨0x0100000000000000, 0xFF0000FFFF000000,
    fun w => .setColor (idxField w) (redField w) (greenField w) (blueField w)⟩,
  ⟨0x0200000000000000, 0xFFFFFFFFFFFFFF00, fun w => .setBrightness (levelField w)⟩,
  ⟨0x0300000000000000, 0xFFFFFFFFFFFFFFFF, fun _ => .send⟩,
  ⟨0x0400000000000000, 0xFFFFFFFFFFFFFFFF, fun _ => .fadeStep⟩,
  ⟨0x0500000000000000, 0xFFFFFFFFFFFFFFFF, fun _ => .fadeRun⟩,
  ⟨0x0600000000000000, 0xFF0000FFFFFFFFFF, fun w => .getColor (idxField w)⟩,
  ⟨0x0700000000000000, 0xFFFFFFFFFFFFFFFF, fun _ => .getBrightness⟩]

/-- Why a word decodes to `ILLEGAL`. -/
inductive Illegal where
  /-- Its opcode is 0x08..0xFF (R78). -/
  | reservedOpcode
  /-- Its opcode names a command but a reserved bit is set (R79). -/
  | reservedField
  deriving DecidableEq, Repr

/-- What a word decodes to: one command, or `ILLEGAL` (R76). -/
inductive Decoded where
  | command (i : Instr)
  | illegal (why : Illegal)
  deriving DecidableEq, Repr

/-- Decode is total: the first row that accepts the word gives the command, and a word no row accepts is illegal (R76). -/
def decode (w : Word) : Decoded :=
  match opcodeMap.find? (fun row => row.accepts w) with
  | some row => .command (row.read w)
  | none => .illegal (if (opcField w).toNat < 8 then .reservedField else .reservedOpcode)

/-- The instruction a decoded word stands for, if any. -/
def Decoded.instr? : Decoded → Option Instr
  | .command i => some i
  | .illegal _ => none

/-- The word of an opcode-table row whose `nbits` bits are `w` (notes/assumptions/23.md): every row has 64 bits (R82),
and the bits above `nbits` are zero. -/
def tableWord (nbits w : Nat) : Word := BitVec.ofNat 64 (w % 2 ^ nbits)

/-- The instruction the decoder reads from an opcode-table word. -/
def decodeTableWord (nbits w : Nat) : Option Instr := (decode (tableWord nbits w)).instr?

/-! ### The encoder (R71-R74) -/

/-- Format Z: opcode, 56 reserved bits (R71). -/
def formatZ (opc : Byte) : Word := opc ++ 0#56

/-- Format C: opcode, IDX, 16 reserved bits, R, G, B (R72). -/
def formatC (opc : Byte) (idx : LedIndex) (r g b : Byte) : Word := opc ++ idx ++ 0#16 ++ r ++ g ++ b

/-- Format I: opcode, IDX, 40 reserved bits (R73). -/
def formatI (opc : Byte) (idx : LedIndex) : Word := opc ++ idx ++ 0#40

/-- Format B: opcode, 48 reserved bits, LVL (R74). -/
def formatB (opc lvl : Byte) : Word := opc ++ 0#48 ++ lvl

/-- The command word of an instruction (R71-R74, R77). -/
def encode : Instr → Word
  | .nop => formatZ 0x00
  | .setColor idx r g b => formatC 0x01 idx r g b
  | .setBrightness lvl => formatB 0x02 lvl
  | .send => formatZ 0x03
  | .fadeStep => formatZ 0x04
  | .fadeRun => formatZ 0x05
  | .getColor idx => formatI 0x06 idx
  | .getBrightness => formatZ 0x07

end Sys2Proof
end

