-- ==== Sys2Proof/Config.lean ====
section
/-! DEFINITION. What is fixed before reset is released (00_scope.md R5, D28), and the values the spec leaves open. -/

namespace Sys2Proof

/-- One LED colour: three independent unsigned 8-bit channels (R20). -/
structure Color where
  r : Byte
  g : Byte
  b : Byte
  deriving DecidableEq, Repr, Inhabited

/-- MODE: which multi-step command is running (R30). -/
inductive Mode where
  /-- `M_SEND`: SEND is running. -/
  | send
  /-- `M_FSTEP`: FADE_STEP is running. -/
  | fadeStep
  /-- `M_FRUN`: FADE_RUN is running. -/
  | fadeRun
  deriving DecidableEq, Repr, Inhabited

/-- The parameters of R5. They are data, held in `State.cfg` and changed by no step (D28), so a statement
about every state is a statement about every parameter value
(DESIGN CHOICE, safe: notes/assumptions/1.md). -/
structure Config where
  /-- `INIT_COLORS`, one colour per LED; its length is the parameter `N` (`Config.N`). -/
  initColors : List Color
  /-- `L`, the length of the trailing latch run. -/
  latchLen : Nat
  /-- `STEP`, legal range 0..255. -/
  fadeStep : Byte
  /-- `FRAME_DELAY` in milliseconds; the model has no time, so no rule reads it (R180, D32). -/
  frameDelayMs : Nat
  /-- `BIT_RATE` in kHz, informative: no rule depends on it (R5). -/
  bitRateKHz : Nat
  /-- `PWM_PERIOD`, OPEN. -/
  pwmPeriod : Nat
  /-- `DUTY_ONE`, OPEN. -/
  dutyOne : Nat
  /-- `DUTY_ZERO`, OPEN. -/
  dutyZero : Nat
  /-- `DUTY_LATCH`, 0. -/
  dutyLatch : Nat
  /-- `DUTY_WIDTH`, OPEN: the width in bits of one pulse-buffer entry. -/
  dutyWidth : Nat
  /-- `CHANNEL`, OPEN: the output identifier passed on every submission (R107). -/
  channel : Nat
  /-- `HAS_TIMEOUT`: the `TransportTimeout` option is built. -/
  hasTimeout : Bool
  /-- `TIMEOUT`, OPEN; the model has no time, so no rule reads it (R181, D32). -/
  timeoutBound : Nat
  /-- `INIT_BRIGHTNESS`, OPEN. -/
  initBrightness : Byte
  deriving DecidableEq, Repr

/-- The parameter `N`, the number of LEDs: INIT_COLORS holds N triples (R5, D23). -/
def Config.N (c : Config) : Nat := c.initColors.length

/-- The constraints R5 puts on the parameters: the range of N,
`DUTY_LATCH < DUTY_ZERO < DUTY_ONE <= PWM_PERIOD`, `DUTY_LATCH = 0`, and an entry wide enough for PWM_PERIOD. -/
abbrev Config.Legal (c : Config) : Prop :=
  1 ≤ c.N ∧ c.N ≤ 65536 ∧ c.dutyLatch = 0 ∧ c.dutyLatch < c.dutyZero ∧ c.dutyZero < c.dutyOne ∧
    c.dutyOne ≤ c.pwmPeriod ∧ c.pwmPeriod < 2 ^ c.dutyWidth

/-- The source's configuration (R5, R149): N = 4 with its initial colours, L = 50, STEP = 5, 50 ms, 800 kHz, no
timeout. The OPEN parameters have no value in the spec; the values here (a period of 100, so that 68 % and 32 % are 68
and 32, in 7 bits; CHANNEL 0; TIMEOUT 0; INIT_BRIGHTNESS 0) are a DESIGN CHOICE, unsafe for a claim about
`State.reset` that rests on them (notes/assumptions/2.md, 3.md). -/
def Config.source : Config where
  initColors := [⟨255, 0, 0⟩, ⟨191, 64, 0⟩, ⟨127, 128, 0⟩, ⟨63, 192, 0⟩]
  latchLen := 50
  fadeStep := 5
  frameDelayMs := 50
  bitRateKHz := 800
  pwmPeriod := 100
  dutyOne := 68
  dutyZero := 32
  dutyLatch := 0
  dutyWidth := 7
  channel := 0
  hasTimeout := false
  timeoutBound := 0
  initBrightness := 0

/-- Free value: what entry k of PB holds after the n-th reset of a run (R26, I6), before it is cut to DUTY_WIDTH bits.
Nothing is known of it (notes/assumptions/4.md). -/
opaque Config.freePulse : Nat → Nat → Nat

/-- Free value: what MODE holds after the n-th reset of a run (R30, I7). Nothing is known of it (notes/assumptions/5.md). -/
opaque Config.freeMode : Nat → Mode

end Sys2Proof
end

