-- ==== Sys2Proof/Machine/State.lean ====
section
/-! DEFINITION. The state of the block and of the agents around it (10_state.md), and the state after reset (R200). -/

namespace Sys2Proof.Machine

open Sys2Proof

/-- CTL: the state of the core's controller, in place of a program counter (R29). -/
inductive Ctl where
  /-- Ready: the command port accepts one command. -/
  | idle
  /-- Executing the current command's single-step part, or the top of a fade iteration. -/
  | exec
  /-- A submission is outstanding; awaiting `DONE = 1`. -/
  | wait
  /-- Waiting out `FRAME_DELAY` after a fade frame. -/
  | delay
  /-- A fatal fault occurred; only reset leaves this state. -/
  | halted
  deriving DecidableEq, Repr

/-- One LED of the LED index space: its stored colour `COL[i]` and its fade level `LVL[i]` (R20, R25, R50). -/
structure Led where
  color : Color
  level : Level
  deriving DecidableEq, Repr

/-- What one `Submit` hands the transport: a snapshot of the pulse sequence and the output identifier (R34, R107). -/
structure Submission where
  seq : List Nat
  channel : Nat
  deriving DecidableEq, Repr

/-- One move of one agent (R7, R178). Commands, CANCEL, completion, delay end, timeout and reset are inputs; `core` is the
block's own step (DESIGN CHOICE, safe: notes/assumptions/6.md). -/
inductive Move where
  /-- The core takes its step. -/
  | core
  /-- The host offers a command word at the command port; it waits there until it is accepted (R29). -/
  | offer (w : Word)
  /-- The host drives the CANCEL level (R33). -/
  | driveCancel (level : Bool)
  /-- The transport raises completion (R179). -/
  | completion
  /-- The timer ends the inter-frame delay (R180). -/
  | delayEnd
  /-- The timer ends the completion wait (R181). -/
  | timeout
  /-- Completion and timeout in one instant (R183). -/
  | completionWithTimeout
  /-- The platform resets the block and the transport together (R200, R201). -/
  | reset
  deriving DecidableEq, Repr

/-- The machine: plain data. -/
structure State where
  /-- The parameters (R5); no step changes them (D28). -/
  cfg : Config
  /-- The colour store `COL` and the fade level file `LVL`, LED 0 first (R20, R25). -/
  leds : List Led
  /-- The brightness register `BRI` (R23). -/
  bri : Byte
  /-- The pulse buffer `PB`, entry 0 first (R26). -/
  pb : List Nat
  /-- The completion flag `DONE` (R27). -/
  done : Bool
  /-- The bit behind `PENDING_LATE`; read it through `State.pendingLate` (R28). -/
  pendingLateBit : Bool
  /-- The controller state `CTL` (R29). -/
  ctl : Ctl
  /-- The command context `MODE` (R30). -/
  mode : Mode
  /-- The iteration counter `ITER` (R30). -/
  iter : Counter
  /-- The fault code register `FAULT_CODE` (R31). -/
  faultCode : Byte
  /-- Every response word emitted, oldest first (R32, R80). -/
  responses : List Word
  /-- The transport's `OUTSTANDING` bit (R34). -/
  outstanding : Bool
  /-- Every submission made, oldest first; while `outstanding`, the last one is in flight (R34, R107). -/
  submissions : List Submission
  /-- The CANCEL input level (R33), driven by the host. -/
  cancel : Bool
  /-- The command words waiting at the port, the next one first (R29). -/
  port : List Word
  /-- The MODEL's own: the moves to come, the next one first; empty means the core moves (notes/assumptions/6.md). -/
  schedule : List Move
  /-- The MODEL's own: counts resets, the argument of the free values (notes/assumptions/24.md). -/
  freeCtr : Nat
  deriving DecidableEq, Repr

/-- Why a step stops with a fault: for no reason. Every error the spec gives the block is a response or a fatal fault,
and both are next states (R170-R177), so this type has no constructor (notes/assumptions/21.md). -/
inductive Fault where
  deriving DecidableEq, Repr

/-- Why a step answers no meaning. -/
inductive Refusal where
  /-- Raised by an arm of `exec` whose command has no meaning yet; safe. No arm raises it: every command has its meaning. -/
  | notModelled (mnemonic : String)
  deriving DecidableEq, Repr

/-- Every LED at level 0 with its initial colour (R200). -/
def initialLeds (c : Config) : List Led := c.initColors.map fun col => ⟨col, 0⟩

/-- The state after reset and power-on with parameters `c` (R200, R201); `pb` and `mode` are what PB and MODE hold, which
the spec leaves unspecified (R26, R30). Nothing is recorded, offered or scheduled. -/
def State.resetWith (c : Config) (pb : List Nat) (mode : Mode) : State where
  cfg := c
  leds := initialLeds c
  bri := c.initBrightness
  pb := pb
  done := false
  pendingLateBit := false
  ctl := .idle
  mode := mode
  iter := 0
  faultCode := 0
  responses := []
  outstanding := false
  submissions := []
  cancel := false
  port := []
  schedule := []
  freeCtr := 0

/-- The machine right after reset, in the source's configuration. PB all zero and MODE = M_SEND are a DESIGN CHOICE, unsafe
(notes/assumptions/4.md, 5.md). -/
def State.reset : State :=
  State.resetWith Config.source (List.replicate (24 * Config.source.N + Config.source.latchLen) 0) .send

end Sys2Proof.Machine
end

