-- ==== Sys2Proof/Machine/Datapath.lean ====
section
/-! DEFINITION. The Frame Encoder's datapath: brightness scaler, GRB packer, duty lookup, frame serializer (R100-R104). -/

namespace Sys2Proof.Machine

open Sys2Proof

/-- `floor(c * b / 255)`, computed on numbers without width (R100, R11). -/
def scale (c b : Byte) : Byte := BitVec.ofNat 8 (c.toNat * b.toNat / 255)

/-- The 24-bit word of a colour at brightness `b`: green 23..16, red 15..8, blue 7..0 (R102). -/
def grb (c : Color) (b : Byte) : BitVec 24 := scale c.g b ++ scale c.r b ++ scale c.b b

/-- The entry of one transmitted bit (R103). -/
def duty (cfg : Config) (bit : Bool) : Nat := if bit then cfg.dutyOne else cfg.dutyZero

/-- The 24 entries of one LED's word, most significant bit first: entry j carries bit 23 - j (R104). -/
def wordPulses (cfg : Config) (w : BitVec 24) : List Nat :=
  (List.range 24).map fun j => duty cfg (w.getLsbD (23 - j))

/-- The whole pulse sequence: the entries of every LED in index order, then L latch entries (R104). It is a function of
the colours and the brightness (R106). -/
def pulseSequence (cfg : Config) (b : Byte) (cols : List Color) : List Nat :=
  cols.flatMap (fun c => wordPulses cfg (grb c b)) ++ List.replicate cfg.latchLen cfg.dutyLatch

end Sys2Proof.Machine
end

