-- ==== Sys2Proof/Machine/Flags.lean ====
section
/-! DEFINITION. The block's flags `DONE` and `PENDING_LATE` (R27, R28, R36), the event enables (R178, R181), and the BUSY and
FAULT outputs. -/

namespace Sys2Proof.Machine

open Sys2Proof

/-- `DONE <- 1`: a completion seen while the core waits (R27, R179). -/
def State.raiseDone (s : State) : State := { s with done := true }

/-- `DONE <- 0`: the core's consume (R27, R108). -/
def State.clearDone (s : State) : State := { s with done := false }

/-- `PENDING_LATE` exists only when `HAS_TIMEOUT`; otherwise it reads 0 always (R28). -/
def State.pendingLate (s : State) : Bool := s.cfg.hasTimeout && s.pendingLateBit

/-- `PENDING_LATE <- v` (R28). -/
def State.writePendingLate (s : State) (v : Bool) : State := { s with pendingLateBit := v }

/-- The timeout event is enabled: `HAS_TIMEOUT` and `CTL = WAIT` and `DONE = 0` (R178, R181). This is also when the
completion timeout timer runs (R186). -/
def State.timeoutEnabled (s : State) : Bool := s.cfg.hasTimeout && s.ctl == .wait && !s.done

/-- The delay-end event is enabled: `CTL = DELAY` (R178, R180). This is also when the delay timer runs (R186). -/
def State.delayEnabled (s : State) : Bool := s.ctl == .delay

/-- The BUSY output: `CTL != IDLE` (R29). -/
def State.busyOutput (s : State) : Bool := s.ctl != .idle

/-- The FAULT output: `FAULT_CODE` (R31). -/
def State.faultOutput (s : State) : Byte := s.faultCode

end Sys2Proof.Machine
end

