-- ==== Sys2Proof/Machine/Operands.lean ====
section
/-! DEFINITION. The operand forms: the LED index with its strict bound (R51), the brightness operand (R74), and the data
field of each response (R81). -/

namespace Sys2Proof.Machine

open Sys2Proof

/-- The number of LEDs the block holds: `N` (R20). -/
def State.numLeds (s : State) : Nat := s.leds.length

/-- An LED index operand is valid iff it is below N, compared as an unsigned number (R51, R75). -/
def State.validIndex (s : State) (idx : LedIndex) : Bool := idx.toNat < s.numLeds

/-- `COL[i].r, .g, .b <- c`; `LVL[i]` keeps its value (R111, D38). -/
def State.writeColor (s : State) (i : Nat) (c : Color) : State :=
  { s with leds := s.leds.modify i fun led => { led with color := c } }

/-- `BRI <- v` (R112). -/
def State.writeBrightness (s : State) (v : Byte) : State := { s with bri := v }

/-- `zext_56(LVL || r || g || b)`, the data of GET_COLOR (R81, R113). -/
def Led.data (led : Led) : Data := (led.level ++ led.color.r ++ led.color.g ++ led.color.b).setWidth 56

/-- `zext_56(BRI)`, the data of GET_BRIGHTNESS (R81, R114). -/
def State.brightnessData (s : State) : Data := s.bri.setWidth 56

/-- `zext_56(ITER)`, the data of FADE_RUN (R81). -/
def State.iterData (s : State) : Data := s.iter.setWidth 56

end Sys2Proof.Machine
end

