-- ==== Sys2Proof/Machine/Ops.lean ====
section
/-! DEFINITION. The shared operations of the core (R13): `respond`, `raise Fault` and the reset that alone leaves it,
`Render`, `Submit`, the frame send, the consume, and the acceptance of a multi-step command. -/

namespace Sys2Proof.Machine

open Sys2Proof

/-! ### Responses (R80, R170) -/

/-- The status codes of R170. -/
inductive Status where
  | ok
  | outOfRange
  | illegalCommand
  | busy
  | transportTimeout
  deriving DecidableEq, Repr

/-- The code of a status (R170). -/
def Status.code : Status → Byte
  | .ok => 0x00
  | .outOfRange => 0x01
  | .illegalCommand => 0x02
  | .busy => 0x03
  | .transportTimeout => 0x04

/-- The response word `STATUS || DATA` (R80). -/
def responseWord (st : Status) (d : Data) : Word := st.code ++ d

/-- `respond(st, d)`: emits one response word (R80). -/
def State.respond (s : State) (st : Status) (d : Data) : State :=
  { s with responses := s.responses ++ [responseWord st d] }

/-- `CTL <- c` (R29). -/
def State.goto (s : State) (c : Ctl) : State := { s with ctl := c }

/-! ### Taking a fatal fault, and the reset that leaves it (R175-R177, R200) -/

/-- The fatal faults of R175. -/
inductive FatalFault where
  | internalState
  | spuriousCompletion
  deriving DecidableEq, Repr

/-- The fault code of R175. -/
def FatalFault.code : FatalFault → Byte
  | .internalState => 1
  | .spuriousCompletion => 2

/-- `raise Fault(code)`: `FAULT_CODE <- code`, `CTL <- HALTED`, no response; nothing else is saved (R176). -/
def State.raiseFault (s : State) (f : FatalFault) : State := { s with faultCode := f.code, ctl := .halted }

/-- What PB holds after a reset: 24 N + L free values of DUTY_WIDTH bits (R26, I6; notes/assumptions/4.md). -/
def State.freePulseBuffer (s : State) : List Nat :=
  (List.range (24 * s.cfg.N + s.cfg.latchLen)).map fun k => Config.freePulse s.freeCtr k % 2 ^ s.cfg.dutyWidth

/-- The reset of block and transport in a running system (R200, R201): every element of the block and the transport's
OUTSTANDING take their reset values, PB and MODE free ones. What the block has already sent, the host's side and the
schedule stand (DESIGN CHOICE: notes/assumptions/11.md, 12.md). -/
def State.platformReset (s : State) : State :=
  { State.resetWith s.cfg s.freePulseBuffer (Config.freeMode s.freeCtr) with
    responses := s.responses
    submissions := s.submissions
    cancel := s.cancel
    port := s.port
    schedule := s.schedule
    freeCtr := s.freeCtr + 1 }

/-! ### The frame send (R104, R107-R109) -/

/-- `Render()`: writes the whole of PB, and only PB, from COL and BRI (R104, R105). -/
def State.render (s : State) : State :=
  { s with pb := pulseSequence s.cfg s.bri (s.leds.map Led.color) }

/-- `Submit(PB, CHANNEL)`: one submission with a copy of PB; `OUTSTANDING <- 1` (R107). -/
def State.submit (s : State) : State :=
  { s with submissions := s.submissions ++ [⟨s.pb, s.cfg.channel⟩], outstanding := true }

/-- `SendFrame()`: render, submit, `CTL <- WAIT` (R109). -/
def State.sendFrame (s : State) : State := s.render.submit.goto .wait

/-- The core's step in `CTL = WAIT` (R108): with `DONE = 1` it consumes the flag and continues by MODE; with `DONE = 0`
it takes no step. -/
def State.consume (s : State) : State :=
  if s.done then
    match s.mode with
    | .send => (s.clearDone.respond .ok 0).goto .idle
    | .fadeStep => s.clearDone.goto .delay
    | .fadeRun => s.clearDone.goto .delay
  else s

/-! ### The course of a multi-step command (R85) -/

/-- Acceptance of SEND, FADE_STEP or FADE_RUN (R85): BUSY while `PENDING_LATE = 1` (R173); otherwise `MODE <- m`,
`CTL <- EXEC`, and for FADE_RUN `ITER <- 0`. -/
def State.start (s : State) (m : Mode) : State :=
  if s.pendingLate then s.respond .busy 0
  else { s with mode := m, ctl := .exec, iter := if m = .fadeRun then 0 else s.iter }

/-- One core step of the multi-step command whose MODE is `m` and whose step from `CTL = EXEC` is `body`: its acceptance in
IDLE; its body in EXEC and the consume in WAIT while it is the running command; no step of it otherwise (R29, R85, R108;
notes/assumptions/8.md). -/
def State.multiStep (s : State) (m : Mode) (body : State → State) : State :=
  match s.ctl with
  | .idle => s.start m
  | .exec => if s.mode = m then body s else s
  | .wait => if s.mode = m then s.consume else s
  | .delay => s
  | .halted => s

/-- A single-step command: it runs, with its response, in the acceptance step; outside IDLE the port holds it
(R29, R85; notes/assumptions/8.md). -/
def State.singleStep (s : State) (body : State → State) : State :=
  match s.ctl with
  | .idle => body s
  | .exec => s
  | .wait => s
  | .delay => s
  | .halted => s

end Sys2Proof.Machine
end

