-- ==== Sys2Proof/Machine/Advance.lean ====
section
/-! DEFINITION. The per-LED phase machine and the fade iteration (R140-R144). -/

namespace Sys2Proof.Machine

open Sys2Proof

/-- `sat8(x)`: a mathematical integer clamped into 0..255 (R11). -/
def sat8 (x : Int) : Byte := BitVec.ofNat 8 (min (max x 0) 255).toNat

/-- The name of a colour channel. -/
inductive Channel where
  | red
  | green
  | blue
  deriving DecidableEq, Repr

/-- Reads one channel (R12). -/
def channelOf (c : Color) : Channel → Byte
  | .red => c.r
  | .green => c.g
  | .blue => c.b

/-- Writes one channel (R12). -/
def setChannel (c : Color) (ch : Channel) (v : Byte) : Color :=
  match ch with
  | .red => { c with r := v }
  | .green => { c with g := v }
  | .blue => { c with b := v }

/-- One row of the phase table: the falling channel, the rising channel, the next level (R140). -/
structure Phase where
  falling : Channel
  rising : Channel
  next : Level
  deriving DecidableEq, Repr

/-- The phase table (R140); level 3 has no row (R142). -/
def phaseOf (level : Level) : Option Phase :=
  match level.toNat with
  | 0 => some ⟨.red, .green, 1⟩
  | 1 => some ⟨.green, .blue, 2⟩
  | 2 => some ⟨.blue, .red, 0⟩
  | _ => none

/-- `Advance(i)` on one LED (R141); none is the fault of level 3, with nothing of the LED written (R142). -/
def Led.advance (step : Byte) (led : Led) : Option Led :=
  match phaseOf led.level with
  | none => none
  | some p =>
    let f := sat8 (((channelOf led.color p.falling).toNat : Int) - (step.toNat : Int))
    let u := sat8 (((channelOf led.color p.rising).toNat : Int) + (step.toNat : Int))
    some ⟨setChannel (setChannel led.color p.falling f) p.rising u,
      if f = 0 ∧ u = 255 then p.next else led.level⟩

/-- `AdvanceAll()` (R143): LED 0 first; it stops at the first fault, the LEDs before it advanced and the others not. The
second component says whether it faulted. -/
def advanceAll (step : Byte) : List Led → List Led × Bool
  | [] => ([], false)
  | led :: rest =>
    match led.advance step with
    | none => (led :: rest, true)
    | some led' =>
      match advanceAll step rest with
      | (leds, faulted) => (led' :: leds, faulted)

/-- `FadeIteration()`: advance every LED, then send one frame; a fault ends it (R144). -/
def State.fadeIteration (s : State) : State :=
  if (advanceAll s.cfg.fadeStep s.leds).2 then
    State.raiseFault { s with leds := (advanceAll s.cfg.fadeStep s.leds).1 } .internalState
  else
    State.sendFrame { s with leds := (advanceAll s.cfg.fadeStep s.leds).1 }

/-- `run_top` of FADE_RUN: CANCEL is sampled, before the iteration's advance (R146, R147). -/
def State.runTop (s : State) : State :=
  if s.cancel then (s.respond .ok s.iterData).goto .idle else s.fadeIteration

end Sys2Proof.Machine
end

