-- ==== Sys2Proof/Machine/FadeController.lean ====
section
/-! DEFINITION. The commands of the Fade Controller (R145, R146). -/

namespace Sys2Proof.Machine

open Sys2Proof

/-- FADE_STEP (R145): acceptance, then one fade iteration, then the consume; the delay end answers (R180). -/
def execFadeStep (s : State) : Host.Outcome State Fault Refusal :=
  .next (s.multiStep .fadeStep State.fadeIteration)

/-- FADE_RUN (R146): acceptance, then `run_top` once per iteration, each followed by the consume and the delay end. -/
def execFadeRun (s : State) : Host.Outcome State Fault Refusal :=
  .next (s.multiStep .fadeRun State.runTop)

end Sys2Proof.Machine
end

