-- ==== Sys2Proof/Machine/FrameEncoder.lean ====
section
/-! DEFINITION. The commands of the Frame Encoder (R110-R115). -/

namespace Sys2Proof.Machine

open Sys2Proof

/-- NOP (R110). -/
def execNop (s : State) : Host.Outcome State Fault Refusal :=
  .next (s.singleStep fun s => s.respond .ok 0)

/-- SET_COLOR (R111): OUT_OF_RANGE when `IDX >= N` (R171). -/
def execSetColor (idx : LedIndex) (r g b : Byte) (s : State) : Host.Outcome State Fault Refusal :=
  .next (s.singleStep fun s =>
    if s.validIndex idx then (s.writeColor idx.toNat ⟨r, g, b⟩).respond .ok 0 else s.respond .outOfRange 0)

/-- SET_BRIGHTNESS (R112). -/
def execSetBrightness (lvl : Byte) (s : State) : Host.Outcome State Fault Refusal :=
  .next (s.singleStep fun s => (s.writeBrightness lvl).respond .ok 0)

/-- GET_COLOR (R113): OUT_OF_RANGE when `IDX >= N` (R171). -/
def execGetColor (idx : LedIndex) (s : State) : Host.Outcome State Fault Refusal :=
  .next (s.singleStep fun s =>
    match s.leds[idx.toNat]? with
    | some led => s.respond .ok led.data
    | none => s.respond .outOfRange 0)

/-- GET_BRIGHTNESS (R114). -/
def execGetBrightness (s : State) : Host.Outcome State Fault Refusal :=
  .next (s.singleStep fun s => s.respond .ok s.brightnessData)

/-- SEND (R115): acceptance, then the frame send, then the consume. -/
def execSend (s : State) : Host.Outcome State Fault Refusal :=
  .next (s.multiStep .send State.sendFrame)

end Sys2Proof.Machine
end

