-- ==== Sys2Proof/Machine/Dispatch.lean ====
section
/-! DEFINITION. One core step of a command: one arm per constructor of `Instr`. -/

namespace Sys2Proof.Machine

open Sys2Proof

def exec (i : Instr) (s : State) : Host.Outcome State Fault Refusal :=
  match i with
  | .nop => Sys2Proof.Machine.execNop s
  | .setColor idx r g b => Sys2Proof.Machine.execSetColor idx r g b s
  | .setBrightness lvl => Sys2Proof.Machine.execSetBrightness lvl s
  | .send => Sys2Proof.Machine.execSend s
  | .fadeStep => Sys2Proof.Machine.execFadeStep s
  | .fadeRun => Sys2Proof.Machine.execFadeRun s
  | .getColor idx => Sys2Proof.Machine.execGetColor idx s
  | .getBrightness => Sys2Proof.Machine.execGetBrightness s

end Sys2Proof.Machine
end

