-- ==== Sys2Proof/Machine/Events.lean ====
section
/-! DEFINITION. The asynchronous events: completion, delay end, timeout (R178-R183). -/

namespace Sys2Proof.Machine

open Sys2Proof

/-- The completion event (R179). It is admitted in every state: a completion that is not owed faults, as the spec says of a
transport that breaks its contract (notes/assumptions/9.md). -/
def State.completionEvent (s : State) : State :=
  let t := { s with outstanding := false }
  if s.ctl = .halted then t
  else if s.ctl = .wait ∧ s.done = false then t.raiseDone
  else if s.pendingLate then t.writePendingLate false
  else t.raiseFault .spuriousCompletion

/-- The delay-end event (R180); while it is not enabled it does not happen: nothing changes (notes/assumptions/10.md). No rule
gives it an effect for M_SEND, which no run brings to DELAY (notes/assumptions/13.md). -/
def State.delayEndEvent (s : State) : State :=
  if s.delayEnabled then
    match s.mode with
    | .send => s
    | .fadeStep => (s.respond .ok 0).goto .idle
    | .fadeRun => State.goto { s with iter := s.iter + 1 } .exec
  else s

/-- The timeout event (R181); while it is not enabled it does not happen: nothing changes (notes/assumptions/10.md). -/
def State.timeoutEvent (s : State) : State :=
  if s.timeoutEnabled then
    ((s.writePendingLate true).respond .transportTimeout
      (match s.mode with
        | .send => 0
        | .fadeStep => 0
        | .fadeRun => s.iterData)).goto .idle
  else s

/-- Completion and timeout in one instant: the completion is taken, after which the timeout is no longer enabled (R183;
notes/assumptions/15.md). -/
def State.simultaneousEvent (s : State) : State := s.completionEvent.timeoutEvent

end Sys2Proof.Machine
end

