-- ==== Sys2Proof/Machine/CoreStep.lean ====
section
/-! DEFINITION. The core's own step and the moves of the other agents (R7, R85, R178). -/

namespace Sys2Proof.Machine

open Sys2Proof

/-- The command that MODE says is running (R30). -/
def runningCommand : Mode → Instr
  | .send => .send
  | .fadeStep => .fadeStep
  | .fadeRun => .fadeRun

/-- Acceptance of a word in IDLE (R85): a legal word runs its command, an illegal one is answered ILLEGAL_COMMAND and changes
nothing else (R172). -/
def accept (w : Word) (s : State) : Host.Outcome State Fault Refusal :=
  match decode w with
  | .command i => exec i s
  | .illegal _ => .next (s.respond .illegalCommand 0)

/-- The core's step: in IDLE it accepts the next word of the port, if there is one; in EXEC and WAIT the running command takes
its step; in DELAY and HALTED, and with nothing to accept, it takes none and the state stands
(R29, R85, R108, R177, R190; notes/assumptions/7.md). -/
def coreStep (s : State) : Host.Outcome State Fault Refusal :=
  match s.ctl with
  | .idle =>
    match s.port with
    | [] => .next s
    | w :: rest => accept w { s with port := rest }
  | .exec => exec (runningCommand s.mode) s
  | .wait => exec (runningCommand s.mode) s
  | .delay => .next s
  | .halted => .next s

/-- The effect of one move of one agent (R7, R178). -/
def takeMove (m : Move) (s : State) : Host.Outcome State Fault Refusal :=
  match m with
  | .core => coreStep s
  | .offer w => .next { s with port := s.port ++ [w] }
  | .driveCancel level => .next { s with cancel := level }
  | .completion => .next s.completionEvent
  | .delayEnd => .next s.delayEndEvent
  | .timeout => .next s.timeoutEvent
  | .completionWithTimeout => .next s.simultaneousEvent
  | .reset => .next s.platformReset

/-- The move that comes next: the head of the schedule, or the core's when nothing is scheduled
(notes/assumptions/6.md). -/
def State.nextMove (s : State) : Move := s.schedule.headD .core

/-- The state with that move taken off the schedule. -/
def State.popMove (s : State) : State := { s with schedule := s.schedule.tail }

end Sys2Proof.Machine
end

