-- ==== Sys2Proof/Machine/Step.lean ====
section
/-! DEFINITION. One step of the machine, and the placing of a command word where the next step accepts it. -/

namespace Sys2Proof.Machine

open Sys2Proof

/-- One step: the next move of the schedule is taken (notes/assumptions/6.md). -/
def step (s : State) : Host.Outcome State Fault Refusal := takeMove s.nextMove s.popMove

/-- `s` with the opcode-table word at the head of the command port, the core idle and the core's move next, so that the next
step accepts exactly that word (notes/assumptions/16.md). -/
def State.withFetchWord (s : State) (nbits w : Nat) : State :=
  { s with ctl := .idle, port := tableWord nbits w :: s.port, schedule := .core :: s.schedule }

end Sys2Proof.Machine
end

