-- ==== Sys2Proof/Machine/Assembler.lean ====
section
/-! DEFINITION. The assembly language of the block (R83) and its pseudo-instructions (R84): reading a line, expanding it,
and turning it into the host's moves. -/

namespace Sys2Proof.Machine

open Sys2Proof

/-! ### Expansion (R84) -/

/-- The lines a line stands for, with `n` LEDs: a pseudo-instruction expands, any other line stands for itself (R84). -/
def expandLine (n : Nat) : Asm → List Asm
  | .setAll r g b => (List.range n).map fun i => .setColor i r g b
  | .showAt lvl => [.setBrightness lvl, .send]
  | .fadeSteps k => List.replicate k .fadeStep
  | .clear => (List.range n).map (fun i => .setColor i 0 0 0) ++ [.send]
  | .nop => [.nop]
  | .setColor idx r g b => [.setColor idx r g b]
  | .setBrightness lvl => [.setBrightness lvl]
  | .send => [.send]
  | .fadeStep => [.fadeStep]
  | .fadeRun => [.fadeRun]
  | .getColor idx => [.getColor idx]
  | .getBrightness => [.getBrightness]
  | .word w => [.word w]
  | .hostCancel level => [.hostCancel level]

/-- The host's move for an expanded line (R83): a command or a raw word is offered at the port, a host action drives
CANCEL. None for a pseudo-instruction, which `expandLine` has taken away. -/
def lineMove : Asm → Option Move
  | .nop => some (.offer (encode .nop))
  | .setColor idx r g b =>
    some (.offer (encode (.setColor (BitVec.ofNat 16 idx) (BitVec.ofNat 8 r) (BitVec.ofNat 8 g) (BitVec.ofNat 8 b))))
  | .setBrightness lvl => some (.offer (encode (.setBrightness (BitVec.ofNat 8 lvl))))
  | .send => some (.offer (encode .send))
  | .fadeStep => some (.offer (encode .fadeStep))
  | .fadeRun => some (.offer (encode .fadeRun))
  | .getColor idx => some (.offer (encode (.getColor (BitVec.ofNat 16 idx))))
  | .getBrightness => some (.offer (encode .getBrightness))
  | .word w => some (.offer (BitVec.ofNat 64 w))
  | .hostCancel level => some (.driveCancel level)
  | .setAll _ _ _ => none
  | .showAt _ => none
  | .fadeSteps _ => none
  | .clear => none

/-- The host's moves for a program, in order; none is an assembly error: a number outside its field's range (R83). -/
def assemble (n : Nat) : List Asm → Option (List Move)
  | [] => some []
  | line :: rest =>
    if line.wellFormed then
      match (expandLine n line).mapM lineMove, assemble n rest with
      | some moves, some more => some (moves ++ more)
      | _, _ => none
    else none

/-! ### Reading a line of text (R83; what the rule leaves open: notes/assumptions/19.md) -/

/-- A blank between words: a space or a tab. -/
def isBlank (c : Char) : Bool := c == ' ' || c == '\t'

/-- Blanks dropped at both ends. -/
def trimBlanks (cs : List Char) : List Char :=
  ((cs.dropWhile isBlank).reverse.dropWhile isBlank).reverse

/-- The value of a digit of any base up to 16, either case. -/
def digitValue (c : Char) : Option Nat :=
  if '0' ≤ c ∧ c ≤ '9' then some (c.toNat - '0'.toNat)
  else if 'a' ≤ c ∧ c ≤ 'f' then some (c.toNat - 'a'.toNat + 10)
  else if 'A' ≤ c ∧ c ≤ 'F' then some (c.toNat - 'A'.toNat + 10)
  else none

/-- Digits of a base, most significant first, after what `acc` holds; a hexadecimal number may be grouped with `_` (R10). -/
def readDigits (base : Nat) (acc : Nat) : List Char → Option Nat
  | [] => some acc
  | c :: cs =>
    if base = 16 ∧ c = '_' then readDigits base acc cs
    else
      match digitValue c with
      | some d => if d < base then readDigits base (base * acc + d) cs else none
      | none => none

/-- A number: decimal, or `0x` and hexadecimal digits (R83). -/
def readNumber : List Char → Option Nat
  | [] => none
  | '0' :: 'x' :: c :: cs => if c = '_' then none else readDigits 16 0 (c :: cs)
  | c :: cs => readDigits 10 0 (c :: cs)

/-- The pieces between commas; a text with no comma is one piece. -/
def splitCommas : List Char → List (List Char)
  | [] => [[]]
  | c :: cs =>
    match splitCommas cs with
    | [] => [[c]]
    | piece :: pieces => if c = ',' then [] :: piece :: pieces else (c :: piece) :: pieces

/-- The operands of a line: none, or numbers separated by commas. -/
def readOperands (cs : List Char) : Option (List Nat) :=
  match trimBlanks cs with
  | [] => some []
  | t => (splitCommas t).mapM fun piece => readNumber (trimBlanks piece)

/-- The line that a mnemonic and its operands stand for; none when they fit no line of R83 or R84. -/
def lineOf (mnemonic : List Char) (ops : List Nat) : Option Asm :=
  if mnemonic = "NOP".toList then (match ops with | [] => some .nop | _ => none)
  else if mnemonic = "SET_COLOR".toList then
    (match ops with | [idx, r, g, b] => some (.setColor idx r g b) | _ => none)
  else if mnemonic = "SET_BRIGHTNESS".toList then
    (match ops with | [lvl] => some (.setBrightness lvl) | _ => none)
  else if mnemonic = "SEND".toList then (match ops with | [] => some .send | _ => none)
  else if mnemonic = "FADE_STEP".toList then (match ops with | [] => some .fadeStep | _ => none)
  else if mnemonic = "FADE_RUN".toList then (match ops with | [] => some .fadeRun | _ => none)
  else if mnemonic = "GET_COLOR".toList then (match ops with | [idx] => some (.getColor idx) | _ => none)
  else if mnemonic = "GET_BRIGHTNESS".toList then (match ops with | [] => some .getBrightness | _ => none)
  else if mnemonic = ".word".toList then (match ops with | [w] => some (.word w) | _ => none)
  else if mnemonic = "SET_ALL".toList then (match ops with | [r, g, b] => some (.setAll r g b) | _ => none)
  else if mnemonic = "SHOW".toList then (match ops with | [lvl] => some (.showAt lvl) | _ => none)
  else if mnemonic = "FADE_STEPS".toList then (match ops with | [k] => some (.fadeSteps k) | _ => none)
  else if mnemonic = "CLEAR".toList then (match ops with | [] => some .clear | _ => none)
  else none

/-- What a line of text is. -/
inductive ParsedLine where
  /-- Nothing but blanks and a comment. -/
  | empty
  /-- A line of R83 or R84. -/
  | line (a : Asm)
  /-- An assembly error. -/
  | error
  deriving DecidableEq, Repr

/-- Reads one line (R83): text after `;` is a comment, but a line that begins `; host: CANCEL <- 0` or `1` records a host
action. -/
def readLine (text : List Char) : ParsedLine :=
  let t := trimBlanks text
  let host := "; host: CANCEL <- ".toList
  if host.isPrefixOf t ∧ (t.drop host.length).head? = some '1' then .line (.hostCancel true)
  else if host.isPrefixOf t ∧ (t.drop host.length).head? = some '0' then .line (.hostCancel false)
  else
    match trimBlanks (t.takeWhile (fun c => c != ';')) with
    | [] => .empty
    | cs =>
      match readOperands (cs.dropWhile fun c => !isBlank c) with
      | none => .error
      | some ops =>
        match lineOf (cs.takeWhile fun c => !isBlank c) ops with
        | some a => .line a
        | none => .error

/-- The lines of a program text; none is an assembly error (R83). -/
def readProgram : List (List Char) → Option (List Asm)
  | [] => some []
  | text :: rest =>
    match readLine text, readProgram rest with
    | .empty, some more => some more
    | .line a, some more => some (a :: more)
    | _, _ => none

end Sys2Proof.Machine
end

