-- ==== Sys2Proof/Safety.lean ====
section
/-! DEFINITION. What a good run is (R9), the invariant of the block, the transport's contract (R187), and the spec's
formulas for a frame and for an advance, written on plain numbers so that claims do not rest on the datapath's own code. -/

namespace Sys2Proof.Machine

open Sys2Proof

/-! ### Runs -/

/-- At rest: IDLE, no command waiting, no submission outstanding (R9). -/
abbrev State.AtRest (s : State) : Prop := s.ctl = .idle ∧ s.port = [] ∧ s.outstanding = false

/-- The core waits on the transport, which has not completed (R9, R206). -/
abbrev State.Waiting (s : State) : Prop := s.ctl = .wait ∧ s.done = false

/-- The move that comes next keeps the transport's contract: no completion without a submission outstanding (R187). -/
abbrev State.TransportKeepsContract (s : State) : Prop :=
  s.nextMove = .completion ∨ s.nextMove = .completionWithTimeout → s.outstanding = true

/-! ### The invariant -/

/-- The parameters are legal and the block holds N LEDs (R5, R20). -/
abbrev State.ParamsOk (s : State) : Prop := s.cfg.Legal ∧ s.numLeds = s.cfg.N

/-- Every fade level is one of 0, 1, 2 (R25). -/
abbrev State.LevelsOk (s : State) : Prop := ∀ led ∈ s.leds, led.level ≠ 3

/-- The pulse buffer has 24 N + L entries of DUTY_WIDTH bits (R6, R26). -/
abbrev State.BufferOk (s : State) : Prop :=
  s.pb.length = 24 * s.numLeds + s.cfg.latchLen ∧ ∀ e ∈ s.pb, e < 2 ^ s.cfg.dutyWidth

/-- `DONE = 1` only in WAIT, or where a completion that was not owed halted a wait (R27, R179); `PENDING_LATE = 1` only in
IDLE, with the timeout built (R28, R181). -/
abbrev State.FlagsOk (s : State) : Prop :=
  (s.done = true → s.ctl = .wait ∨ s.ctl = .halted) ∧
    (s.pendingLateBit = true → s.cfg.hasTimeout = true ∧ s.ctl = .idle)

/-- A submission is outstanding exactly while the core waits with `DONE = 0` or a late completion is owed (R179), and what is
in flight is PB itself, unchanged since its submission (R61). -/
abbrev State.TransportOk (s : State) : Prop :=
  (s.outstanding = true ↔ (s.ctl = .wait ∧ s.done = false) ∨ s.pendingLateBit = true) ∧
    (s.outstanding = true → s.submissions.getLast? = some ⟨s.pb, s.cfg.channel⟩)

/-- FAULT_CODE is 0, 1 or 2, and nonzero exactly in HALTED; SEND never reaches DELAY (R31, R175, R108). -/
abbrev State.ControlOk (s : State) : Prop :=
  s.faultCode.toNat ≤ 2 ∧ (s.faultCode ≠ 0 ↔ s.ctl = .halted) ∧ (s.ctl = .delay → s.mode ≠ .send)

/-- The invariant of the block. -/
abbrev State.Inv (s : State) : Prop :=
  s.ParamsOk ∧ s.LevelsOk ∧ s.BufferOk ∧ s.FlagsOk ∧ s.TransportOk ∧ s.ControlOk

/-! ### The spec's formulas -/

/-- `floor(c * b / 255)` on numbers (R100). -/
def scaledNat (c b : Byte) : Nat := c.toNat * b.toNat / 255

/-- The GRB word on numbers: green in bits 23..16, red in 15..8, blue in 7..0 (R102). -/
def grbNat (c : Color) (b : Byte) : Nat :=
  scaledNat c.g b * 65536 + scaledNat c.r b * 256 + scaledNat c.b b

/-- The sequence carries the frame of these LEDs at brightness `b`: 24 N + L entries, entry `24 i + j` the duty of bit
`23 - j` of LED i's GRB word, and then L latch entries (R6, R102-R104). -/
def CarriesFrame (cfg : Config) (b : Byte) (leds : List Led) (seq : List Nat) : Prop :=
  seq.length = 24 * leds.length + cfg.latchLen ∧
    (∀ (i : Nat) (led : Led), leds[i]? = some led → ∀ j, j < 24 →
      seq[24 * i + j]? = some (if (grbNat led.color b).testBit (23 - j) then cfg.dutyOne else cfg.dutyZero)) ∧
    (∀ k, k < cfg.latchLen → seq[24 * leds.length + k]? = some cfg.dutyLatch)

/-- One advance of one LED on numbers (R141): in level 0 red falls and green rises, in 1 green falls and blue rises, in 2 blue
falls and red rises, each by STEP and clamped into 0..255; the third channel keeps its value; the level changes when
the new values are 0 and 255. Level 3 has no advance (R142). -/
def AdvancesTo (step : Byte) (led led' : Led) : Prop :=
  (led.level = 0 →
    led'.color.r.toNat = led.color.r.toNat - step.toNat ∧
    led'.color.g.toNat = min (led.color.g.toNat + step.toNat) 255 ∧ led'.color.b = led.color.b ∧
    led'.level = if led'.color.r = 0 ∧ led'.color.g = 255 then 1 else 0) ∧
  (led.level = 1 →
    led'.color.g.toNat = led.color.g.toNat - step.toNat ∧
    led'.color.b.toNat = min (led.color.b.toNat + step.toNat) 255 ∧ led'.color.r = led.color.r ∧
    led'.level = if led'.color.g = 0 ∧ led'.color.b = 255 then 2 else 1) ∧
  (led.level = 2 →
    led'.color.b.toNat = led.color.b.toNat - step.toNat ∧
    led'.color.r.toNat = min (led.color.r.toNat + step.toNat) 255 ∧ led'.color.g = led.color.g ∧
    led'.level = if led'.color.b = 0 ∧ led'.color.r = 255 then 0 else 2) ∧
  led.level ≠ 3

/-- Every LED of `after` is the advance of the LED with its index in `before` (R143). -/
def AllAdvanced (step : Byte) (before after : List Led) : Prop :=
  after.length = before.length ∧
    ∀ (i : Nat) (led : Led), before[i]? = some led → ∃ led', after[i]? = some led' ∧ AdvancesTo step led led'

/-- `k` successive advances of one LED (R148); none where one of them faults. -/
def advances (step : Byte) (led : Led) : Nat → Option Led
  | 0 => some led
  | k + 1 => (advances step led k).bind (Led.advance step)

/-- Every LED of `after` is what `k` advances make of the LED with its index in `before` (R143, R144). -/
def AdvancedTimes (step : Byte) (k : Nat) (before after : List Led) : Prop :=
  after.length = before.length ∧
    ∀ (i : Nat) (led : Led), before[i]? = some led → ∃ led', advances step led k = some led' ∧ after[i]? = some led'

/-- The falling channel of the LED's level (R140); 0 in the illegal level. -/
def fallingValue (led : Led) : Nat :=
  if led.level = 0 then led.color.r.toNat
  else if led.level = 1 then led.color.g.toNat
  else if led.level = 2 then led.color.b.toNat else 0

/-- The rising channel of the LED's level (R140); 0 in the illegal level. -/
def risingValue (led : Led) : Nat :=
  if led.level = 0 then led.color.g.toNat
  else if led.level = 1 then led.color.b.toNat
  else if led.level = 2 then led.color.r.toNat else 0

/-- The untouched channel of the LED's level (R140); 0 in the illegal level. -/
def untouchedValue (led : Led) : Nat :=
  if led.level = 0 then led.color.b.toNat
  else if led.level = 1 then led.color.r.toNat
  else if led.level = 2 then led.color.g.toNat else 0

/-- The level after the LED's level on the ring 0, 1, 2, 0 (R140). -/
def nextLevel (l : Level) : Level := if l = 0 then 1 else if l = 1 then 2 else 0

/-- The core accepts the word `w` in this state's next step: IDLE, `w` at the head of the port, the core's move next (R29). -/
abbrev State.AcceptsNext (s : State) (w : Word) : Prop :=
  s.ctl = .idle ∧ s.port.head? = some w ∧ s.nextMove = .core

end Sys2Proof.Machine
end

