-- ==== Sys2Proof/Certificates/Slice0/Obligations.lean ====
section
/-! DEFINITION. The statements for the provers, in the order of OBLIGATIONS.json. Response words are written out as numbers: OK is
`0x00` in bits 63:56, OUT_OF_RANGE `0x01`, ILLEGAL_COMMAND `0x02`, BUSY `0x03`, TRANSPORT_TIMEOUT `0x04` (R170). A frame is
said by record update: `t = { s with f := t.f }` says that no field but `f` changed. -/

open Sys2Proof Sys2Proof.Machine

/-! ### Encoding (R70-R79) -/

/-- Decoding an encoded command gives it back, every operand at every value (R70-R77). -/
def Obligations.DecodeOfEncodeGivesTheCommand : Prop :=
  ∀ i : Instr, decode (encode i) = .command i

/-- Each word has one meaning: a word that decodes to a command is that command's encoding (R76, R79). -/
def Obligations.EncodeOfDecodeGivesTheWord : Prop :=
  ∀ (w : Word) (i : Instr), decode w = .command i → encode i = w

/-- R76: a word a row accepts decodes to that row's command; at most one row accepts it, the rows having distinct
opcodes and masks that cover bits 63:56; a word no row accepts is illegal. -/
def Obligations.DecodingFollowsTheDisjointRowsOfTheMap : Prop :=
  (∀ row ∈ opcodeMap, ∀ w : Word, w &&& row.mask = row.pattern → decode w = .command (row.read w)) ∧
  (∀ (m n : Nat) (rowM rowN : Row) (w : Word), opcodeMap[m]? = some rowM → opcodeMap[n]? = some rowN →
    w &&& rowM.mask = rowM.pattern → w &&& rowN.mask = rowN.pattern → m = n) ∧
  (∀ (m n : Nat) (rowM rowN : Row), opcodeMap[m]? = some rowM → opcodeMap[n]? = some rowN → m ≠ n →
    rowM.pattern.extractLsb' 56 8 ≠ rowN.pattern.extractLsb' 56 8) ∧
  (∀ row ∈ opcodeMap, row.mask.extractLsb' 56 8 = 0xFF) ∧
  (∀ w : Word, (∀ row ∈ opcodeMap, w &&& row.mask ≠ row.pattern) → ∃ why, decode w = .illegal why)

/-- R79: a word whose opcode names a command but whose reserved bits (R71-R74) are not all zero decodes to ILLEGAL; the rule's
example is the last clause. -/
def Obligations.NonzeroReservedBitsAreIllegal : Prop :=
  (∀ w : Word, w.extractLsb' 56 8 = 0x00 ∨ w.extractLsb' 56 8 = 0x03 ∨ w.extractLsb' 56 8 = 0x04 ∨
      w.extractLsb' 56 8 = 0x05 ∨ w.extractLsb' 56 8 = 0x07 →
    w.extractLsb' 0 56 ≠ 0 → decode w = .illegal .reservedField) ∧
  (∀ w : Word, w.extractLsb' 56 8 = 0x01 → w.extractLsb' 24 16 ≠ 0 → decode w = .illegal .reservedField) ∧
  (∀ w : Word, w.extractLsb' 56 8 = 0x02 → w.extractLsb' 8 48 ≠ 0 → decode w = .illegal .reservedField) ∧
  (∀ w : Word, w.extractLsb' 56 8 = 0x06 → w.extractLsb' 0 40 ≠ 0 → decode w = .illegal .reservedField) ∧
  decode 0x0300000000000001 = .illegal .reservedField

/-- R78, R172: a reserved opcode decodes to ILLEGAL, and any illegal word the core accepts is answered ILLEGAL_COMMAND with
data 0; the word leaves the port and nothing else changes (CTL stays IDLE). -/
def Obligations.IllegalWordsAreAnsweredIllegalCommand : Prop :=
  (∀ w : Word, 8 ≤ (w.extractLsb' 56 8).toNat → decode w = .illegal .reservedOpcode) ∧
  (∀ (s : State) (w : Word) (why : Illegal), decode w = .illegal why → s.AcceptsNext w →
    step s = .next { s with
      port := s.port.tail
      schedule := s.schedule.tail
      responses := s.responses ++ [0x0200000000000000] })

/-- Words written out from the spec's encodings decode to their commands (R77, R110-R115, R145, R146 and their examples). -/
def Obligations.WordsOfTheSpecDecodeToTheirCommands : Prop :=
  decode 0x0000000000000000 = .command .nop ∧
  decode 0x0100000000FF0000 = .command (.setColor 0 255 0 0) ∧
  decode 0x0100030000010203 = .command (.setColor 3 1 2 3) ∧
  decode 0x020000000000001E = .command (.setBrightness 30) ∧
  decode 0x0300000000000000 = .command .send ∧
  decode 0x0400000000000000 = .command .fadeStep ∧
  decode 0x0500000000000000 = .command .fadeRun ∧
  decode 0x0600030000000000 = .command (.getColor 3) ∧
  decode 0x0700000000000000 = .command .getBrightness

/-! ### The step (R7, R29, R85) -/

/-- A step that accepts a word which decodes to `i` is `exec` of `i` at the state with the word off the port and the move off
the schedule (R85). -/
def Obligations.StepRunsTheDecodedCommand : Prop :=
  ∀ (s : State) (w : Word) (i : Instr), s.AcceptsNext w → decode w = .command i →
    step s = exec i { s with port := s.port.tail, schedule := s.schedule.tail }

/-- In EXEC and WAIT the core's step is a step of the command MODE names (R30, R85, R108). -/
def Obligations.StepContinuesTheRunningCommand : Prop :=
  ∀ s : State, s.nextMove = .core → s.ctl = .exec ∨ s.ctl = .wait →
    step s = exec (match s.mode with | .send => .send | .fadeStep => .fadeStep | .fadeRun => .fadeRun)
      { s with schedule := s.schedule.tail }

/-- Outside IDLE no command is accepted (R29): a waiting word stays at the port, and `exec` of a command that is not running,
which is each of them in DELAY and HALTED and each but the one MODE names in EXEC and WAIT, answers the same state. That
`exec` answers at all there is the model's form of holding (notes/assumptions/8.md); that a reset too leaves the waiting
words is the model's choice, no rule of the spec (notes/assumptions/12.md). -/
def Obligations.PortHoldsCommandsOutsideIdle : Prop :=
  (∀ s t : State, s.ctl ≠ .idle → step s = .next t →
    t.port = s.port ∨ ∃ w, s.nextMove = .offer w ∧ t.port = s.port ++ [w]) ∧
  (∀ (s : State) (i : Instr), s.ctl ≠ .idle → i ≠ .send → i ≠ .fadeStep → i ≠ .fadeRun → exec i s = .next s) ∧
  (∀ (s : State) (i : Instr), s.ctl = .delay ∨ s.ctl = .halted → exec i s = .next s) ∧
  (∀ s : State, s.ctl = .exec ∨ s.ctl = .wait →
    (s.mode ≠ .send → exec .send s = .next s) ∧
    (s.mode ≠ .fadeStep → exec .fadeStep s = .next s) ∧
    (s.mode ≠ .fadeRun → exec .fadeRun s = .next s))

/-- Where the core has no step it changes nothing: DELAY, HALTED, WAIT with `DONE = 0`, IDLE with no word at the port
(R29, R108, R177, R190). That such a step is taken and leaves the state is the model's form (notes/assumptions/7.md). -/
def Obligations.CoreWithNoStepChangesNothing : Prop :=
  ∀ s : State, s.nextMove = .core →
    s.ctl = .delay ∨ s.ctl = .halted ∨ (s.ctl = .wait ∧ s.done = false) ∨ (s.ctl = .idle ∧ s.port = []) →
    step s = .next { s with schedule := s.schedule.tail }

/-! ### The single-step commands (R110-R114) -/

/-- R110: NOP is the all-zero word, and a word with opcode 0 and a reserved bit set is not a NOP; it answers OK with data 0 and
changes nothing else; accepted only in IDLE. -/
def Obligations.NopAnswersOk : Prop :=
  decode 0x0000000000000000 = .command .nop ∧
  (∀ w : Word, w.extractLsb' 56 8 = 0x00 → w.extractLsb' 0 56 ≠ 0 → ∃ why, decode w = .illegal why) ∧
  (∀ s : State, s.ctl = .idle →
    exec .nop s = .next { s with responses := s.responses ++ [0x0000000000000000] }) ∧
  (∀ s t : State, s.ctl ≠ .idle → exec .nop s = .next t → t.responses = s.responses)

/-- R111: SET_COLOR with `IDX < N` writes the three channels of that LED, leaves its level, answers OK and changes nothing
else. -/
def Obligations.SetColorWritesTheThreeChannels : Prop :=
  ∀ (s : State) (idx : LedIndex) (r g b : Byte) (led : Led), s.ctl = .idle → s.leds[idx.toNat]? = some led →
    exec (.setColor idx r g b) s = .next { s with
      leds := s.leds.set idx.toNat ⟨⟨r, g, b⟩, led.level⟩
      responses := s.responses ++ [0x0000000000000000] }

/-- R51, R171: an index is valid exactly below N; SET_COLOR and GET_COLOR with `IDX >= N`, N included, answer OUT_OF_RANGE with
data 0 and change nothing else; with `IDX < N` they answer OK. -/
def Obligations.IndexesFromNAreOutOfRange : Prop :=
  (∀ (s : State) (idx : LedIndex) (r g b : Byte), s.ctl = .idle → s.numLeds ≤ idx.toNat →
    exec (.setColor idx r g b) s = .next { s with responses := s.responses ++ [0x0100000000000000] } ∧
    exec (.getColor idx) s = .next { s with responses := s.responses ++ [0x0100000000000000] }) ∧
  (∀ (s : State) (idx : LedIndex) (r g b : Byte), s.ctl = .idle → idx.toNat < s.numLeds →
    (∃ t, exec (.setColor idx r g b) s = .next t ∧ t.responses = s.responses ++ [0x0000000000000000]) ∧
    (∃ (t : State) (d : BitVec 56), exec (.getColor idx) s = .next t ∧ t.responses = s.responses ++ [0x00#8 ++ d]))

/-- R112: SET_BRIGHTNESS writes BRI, answers OK and changes nothing else. -/
def Obligations.SetBrightnessWritesBri : Prop :=
  ∀ (s : State) (lvl : Byte), s.ctl = .idle →
    exec (.setBrightness lvl) s = .next { s with bri := lvl, responses := s.responses ++ [0x0000000000000000] }

/-- R113: GET_COLOR with `IDX < N` answers OK with the level in DATA[25:24] and the stored r, g, b in DATA[23:0], whatever BRI
is and also at level 3, and changes nothing else. -/
def Obligations.GetColorAnswersTheStoredLed : Prop :=
  ∀ (s : State) (idx : LedIndex) (led : Led), s.ctl = .idle → s.leds[idx.toNat]? = some led →
    exec (.getColor idx) s = .next { s with
      responses := s.responses ++ [BitVec.ofNat 64 (led.level.toNat * 2 ^ 24 + led.color.r.toNat * 2 ^ 16 +
        led.color.g.toNat * 2 ^ 8 + led.color.b.toNat)] }

/-- R114: GET_BRIGHTNESS answers OK with BRI in DATA[7:0] and changes nothing else. -/
def Obligations.GetBrightnessAnswersBri : Prop :=
  ∀ s : State, s.ctl = .idle →
    exec .getBrightness s = .next { s with responses := s.responses ++ [BitVec.ofNat 64 s.bri.toNat] }

/-- The source's read-back property: a colour set and read back is the exact stored one, whatever brightness is set between
(R111-R113, E6). -/
def Obligations.ReadBackIsIndependentOfBrightness : Prop :=
  ∀ (s t u v : State) (idx : LedIndex) (r g b lvl : Byte), s.ctl = .idle → idx.toNat < s.numLeds →
    exec (.setColor idx r g b) s = .next t → exec (.setBrightness lvl) t = .next u → exec (.getColor idx) u = .next v →
    ∃ level : Level, v.responses = s.responses ++ [0x0000000000000000, 0x0000000000000000,
      BitVec.ofNat 64 (level.toNat * 2 ^ 24 + r.toNat * 2 ^ 16 + g.toNat * 2 ^ 8 + b.toNat)]

/-- The frame of the single-step commands (R22, R23, R25, R56): NOP, GET_COLOR and GET_BRIGHTNESS change at most the response
record; SET_BRIGHTNESS also BRI; SET_COLOR also the colour, never the level, of LED IDX and of no other LED. -/
def Obligations.SingleStepCommandsLeaveTheRest : Prop :=
  (∀ (s t : State) (i : Instr), (i = .nop ∨ i = .getBrightness ∨ ∃ idx, i = .getColor idx) → exec i s = .next t →
    t = { s with responses := t.responses }) ∧
  (∀ (s t : State) (lvl : Byte), exec (.setBrightness lvl) s = .next t →
    t = { s with responses := t.responses, bri := t.bri }) ∧
  (∀ (s t : State) (idx : LedIndex) (r g b : Byte), exec (.setColor idx r g b) s = .next t →
    t = { s with responses := t.responses, leds := t.leds } ∧
    t.leds.map Led.level = s.leds.map Led.level ∧
    ∀ k : Nat, k ≠ idx.toNat → t.leds[k]? = s.leds[k]?)

/-! ### The multi-step commands (R85, R108, R109, R115, R145, R146) -/

/-- Acceptance of SEND, FADE_STEP and FADE_RUN with `PENDING_LATE = 0`: MODE, CTL <- EXEC, ITER <- 0 for FADE_RUN, no response
yet, nothing else (R85). -/
def Obligations.MultiStepCommandsEnterExec : Prop :=
  ∀ s : State, s.ctl = .idle → s.cfg.hasTimeout = false ∨ s.pendingLateBit = false →
    exec .send s = .next { s with mode := .send, ctl := .exec } ∧
    exec .fadeStep s = .next { s with mode := .fadeStep, ctl := .exec } ∧
    exec .fadeRun s = .next { s with mode := .fadeRun, ctl := .exec, iter := 0 }

/-- R173: while `PENDING_LATE = 1`, SEND, FADE_STEP and FADE_RUN answer BUSY with data 0 and change nothing else; the late
completion clears the flag, and the command is then accepted. -/
def Obligations.RenderingCommandsAreBusyAfterATimeout : Prop :=
  ∀ (s : State) (i : Instr), i = .send ∨ i = .fadeStep ∨ i = .fadeRun → s.ctl = .idle → s.cfg.hasTimeout = true →
    s.pendingLateBit = true →
    exec i s = .next { s with responses := s.responses ++ [0x0300000000000000] } ∧
    (s.nextMove = .completion → ∃ t u : State, step s = .next t ∧ t.pendingLateBit = false ∧ t.ctl = .idle ∧
      exec i t = .next u ∧ u.ctl = .exec ∧ u.responses = s.responses)

/-- SEND's step from EXEC (R104, R107, R109, R115): PB becomes the frame of the stored colours at BRI, one submission with a
copy of it and CHANNEL is made, OUTSTANDING is set and CTL is WAIT; nothing else changes. -/
def Obligations.SendRendersSubmitsAndWaits : Prop :=
  ∀ s : State, s.ctl = .exec → s.mode = .send →
    ∃ t : State, exec .send s = .next t ∧ CarriesFrame s.cfg s.bri s.leds t.pb ∧
      t = { s with
        pb := t.pb
        submissions := s.submissions ++ [⟨t.pb, s.cfg.channel⟩]
        outstanding := true
        ctl := .wait }

/-- R108: with `DONE = 1` the waiting command consumes the flag and continues by MODE: SEND answers OK and ends, FADE_STEP and
FADE_RUN go to DELAY. With `DONE = 0` nothing changes: that `exec` of the waiting command then answers the same state is the
model's form of a step not enabled (notes/assumptions/7.md), and that `exec` of the two commands MODE does not name does so
is its form of a command that is not running (notes/assumptions/8.md). -/
def Obligations.ConsumeContinuesByMode : Prop :=
  ∀ s : State, s.ctl = .wait →
    (s.done = true → s.mode = .send →
      exec .send s = .next { s with done := false, ctl := .idle, responses := s.responses ++ [0x0000000000000000] }) ∧
    (s.done = true → s.mode = .fadeStep → exec .fadeStep s = .next { s with done := false, ctl := .delay }) ∧
    (s.done = true → s.mode = .fadeRun → exec .fadeRun s = .next { s with done := false, ctl := .delay }) ∧
    (s.done = false → exec .send s = .next s ∧ exec .fadeStep s = .next s ∧ exec .fadeRun s = .next s)

/-- R144: one fade iteration, of FADE_STEP and of FADE_RUN with CANCEL = 0, advances every LED and sends the frame of the
advanced colours at the current BRI; nothing else changes. -/
def Obligations.FadeIterationAdvancesEveryLedAndSends : Prop :=
  ∀ (s : State) (i : Instr), s.ctl = .exec →
    (i = .fadeStep ∧ s.mode = .fadeStep) ∨ (i = .fadeRun ∧ s.mode = .fadeRun ∧ s.cancel = false) →
    (∀ led ∈ s.leds, led.level ≠ 3) →
    ∃ t : State, exec i s = .next t ∧ AllAdvanced s.cfg.fadeStep s.leds t.leds ∧
      CarriesFrame s.cfg s.bri t.leds t.pb ∧
      t = { s with
        leds := t.leds
        pb := t.pb
        submissions := s.submissions ++ [⟨t.pb, s.cfg.channel⟩]
        outstanding := true
        ctl := .wait }

/-- R142, R143, R176: an iteration that meets an LED of level 3 halts with fault code 1: the LEDs before the first such LED are
advanced, that LED and those after it are not, and no render, submission or response follows. -/
def Obligations.IllegalLevelHaltsTheFade : Prop :=
  ∀ (s : State) (i : Instr) (pre post : List Led) (bad : Led), s.ctl = .exec →
    (i = .fadeStep ∧ s.mode = .fadeStep) ∨ (i = .fadeRun ∧ s.mode = .fadeRun ∧ s.cancel = false) →
    s.leds = pre ++ bad :: post → (∀ led ∈ pre, led.level ≠ 3) → bad.level = 3 →
    ∃ (t : State) (pre' : List Led), exec i s = .next t ∧ AllAdvanced s.cfg.fadeStep pre pre' ∧
      t = { s with leds := pre' ++ bad :: post, faultCode := 1, ctl := .halted }

/-- R146: at the top of FADE_RUN with CANCEL = 1 the command answers OK with ITER and ends; no advance, no submission, nothing
else changes; CANCEL is not cleared. -/
def Obligations.CancelledFadeRunAnswersIter : Prop :=
  ∀ s : State, s.ctl = .exec → s.mode = .fadeRun → s.cancel = true →
    exec .fadeRun s = .next { s with
      ctl := .idle
      responses := s.responses ++ [BitVec.ofNat 64 s.iter.toNat] }

/-- The frame of the multi-step commands over every state: SEND changes at most PB, DONE, CTL, MODE, the responses and the
transport's state; FADE_STEP and FADE_RUN also the LEDs and FAULT_CODE, FADE_RUN also ITER; PB, the LEDs and the
transport's state change only from EXEC (R22, R26, R105, R150). -/
def Obligations.MultiStepCommandsLeaveTheRest : Prop :=
  (∀ s t : State, exec .send s = .next t →
    t = { s with pb := t.pb, done := t.done, ctl := t.ctl, mode := t.mode, responses := t.responses,
                 outstanding := t.outstanding, submissions := t.submissions }) ∧
  (∀ s t : State, exec .fadeStep s = .next t →
    t = { s with pb := t.pb, done := t.done, ctl := t.ctl, mode := t.mode, responses := t.responses,
                 outstanding := t.outstanding, submissions := t.submissions, leds := t.leds,
                 faultCode := t.faultCode }) ∧
  (∀ s t : State, exec .fadeRun s = .next t →
    t = { s with pb := t.pb, done := t.done, ctl := t.ctl, mode := t.mode, responses := t.responses,
                 outstanding := t.outstanding, submissions := t.submissions, leds := t.leds,
                 faultCode := t.faultCode, iter := t.iter }) ∧
  (∀ (s t : State) (i : Instr), i = .send ∨ i = .fadeStep ∨ i = .fadeRun → s.ctl ≠ .exec → exec i s = .next t →
    t.pb = s.pb ∧ t.leds = s.leds ∧ t.outstanding = s.outstanding ∧ t.submissions = s.submissions ∧
      t.faultCode = s.faultCode)

/-- A SEND runs to its response: acceptance, frame send, completion, consume (R115). It answers OK once, makes one submission
of the frame of the stored colours at BRI, and ends in IDLE with colours, levels and brightness as they were. -/
def Obligations.SendRunsToItsResponse : Prop :=
  ∀ (s : State) (more : List Move), s.ctl = .idle → s.done = false →
    s.cfg.hasTimeout = false ∨ s.pendingLateBit = false →
    s.port.head? = some 0x0300000000000000 → s.schedule = [.core, .core, .completion, .core] ++ more →
    ∃ t : State, Host.Core.run Sys2Proof.core 4 s = .next t ∧ CarriesFrame s.cfg s.bri s.leds t.pb ∧
      t = { s with
        port := s.port.tail
        schedule := more
        mode := .send
        pb := t.pb
        submissions := s.submissions ++ [⟨t.pb, s.cfg.channel⟩]
        outstanding := false
        responses := s.responses ++ [0x0000000000000000] }

/-- A FADE_STEP runs to its response: acceptance, fade iteration, completion, consume, delay end (R145). It answers OK once,
every LED has advanced once, and one frame of the advanced colours was submitted. -/
def Obligations.FadeStepRunsToItsResponse : Prop :=
  ∀ (s : State) (more : List Move), s.ctl = .idle → s.done = false →
    s.cfg.hasTimeout = false ∨ s.pendingLateBit = false → (∀ led ∈ s.leds, led.level ≠ 3) →
    s.port.head? = some 0x0400000000000000 → s.schedule = [.core, .core, .completion, .core, .delayEnd] ++ more →
    ∃ t : State, Host.Core.run Sys2Proof.core 5 s = .next t ∧ AllAdvanced s.cfg.fadeStep s.leds t.leds ∧
      CarriesFrame s.cfg s.bri t.leds t.pb ∧
      t = { s with
        port := s.port.tail
        schedule := more
        mode := .fadeStep
        leds := t.leds
        pb := t.pb
        submissions := s.submissions ++ [⟨t.pb, s.cfg.channel⟩]
        outstanding := false
        responses := s.responses ++ [0x0000000000000000] }

/-- A FADE_RUN runs to its response: with CANCEL = 0 for n iterations (advance and frame, completion, consume, delay end) and
CANCEL asserted before the next top, it answers OK once with n modulo 2^32, every LED has made n advances, and CANCEL stays
asserted (R144, R146, R147). Of the n submissions it makes, after those already made, the one with number k carries CHANNEL
and the frame of the LEDs after k + 1 advances; PB holds the last of them, and with n = 0 neither PB nor a submission is
written. -/
def Obligations.FadeRunAnswersTheNumberOfItsIterations : Prop :=
  ∀ (n : Nat) (s : State) (more : List Move), s.ctl = .idle → s.done = false → s.outstanding = false → s.cancel = false →
    s.cfg.hasTimeout = false ∨ s.pendingLateBit = false → (∀ led ∈ s.leds, led.level ≠ 3) →
    s.port.head? = some 0x0500000000000000 →
    s.schedule = .core :: (List.replicate n [.core, .completion, .core, .delayEnd]).flatten ++
      [.driveCancel true, .core] ++ more →
    ∃ (t : State) (frames : List Submission), Host.Core.run Sys2Proof.core (4 * n + 3) s = .next t ∧
      AdvancedTimes s.cfg.fadeStep n s.leds t.leds ∧
      frames.length = n ∧
      (∀ (k : Nat) (frame : Submission), frames[k]? = some frame →
        frame.channel = s.cfg.channel ∧
        ∃ leds, AdvancedTimes s.cfg.fadeStep (k + 1) s.leds leds ∧ CarriesFrame s.cfg s.bri leds frame.seq) ∧
      (n = 0 → t.pb = s.pb) ∧
      (n ≠ 0 → frames.getLast? = some ⟨t.pb, s.cfg.channel⟩) ∧
      t = { s with
        port := s.port.tail
        schedule := more
        mode := .fadeRun
        iter := BitVec.ofNat 32 n
        leds := t.leds
        pb := t.pb
        submissions := s.submissions ++ frames
        cancel := true
        responses := s.responses ++ [BitVec.ofNat 64 (n % 2 ^ 32)] }

/-! ### The datapath (R100-R106, R148) -/

/-- R100, R101: the scaler is `floor(c * b / 255)`, stays in 0..255, is monotonic in both arguments, symmetric, at most either
argument, the identity at 255 and 0 at 0. -/
def Obligations.ScalerLaws : Prop :=
  (∀ c b : Byte, (scale c b).toNat = c.toNat * b.toNat / 255) ∧
  (∀ c b : Byte, (scale c b).toNat ≤ 255 ∧ (scale c b).toNat ≤ min c.toNat b.toNat ∧ scale c b = scale b c) ∧
  (∀ c c' b : Byte, c.toNat ≤ c'.toNat → (scale c b).toNat ≤ (scale c' b).toNat) ∧
  (∀ c b b' : Byte, b.toNat ≤ b'.toNat → (scale c b).toNat ≤ (scale c b').toNat) ∧
  (∀ c : Byte, scale c 255 = c ∧ scale c 0 = 0 ∧ scale 0 c = 0) ∧
  scale 128 128 = 64 ∧ scale 1 254 = 0 ∧ scale 2 128 = 1

/-- R106: a render is a function of COL and BRI: whichever commands two blocks render for, with equal parameters, brightness and
colours as they stand at the render, the buffers are equal, whatever the levels, ITER, DONE and the previous PB are. -/
def Obligations.RenderDependsOnColoursAndBrightnessOnly : Prop :=
  ∀ (i i' : Instr) (s s' t t' : State), s.ctl = .exec → s'.ctl = .exec → exec i s = .next t → exec i' s' = .next t' →
    t.ctl = .wait → t'.ctl = .wait → s.cfg = s'.cfg → s.bri = s'.bri →
    t.leds.map Led.color = t'.leds.map Led.color → t.pb = t'.pb

/-- R148: with `f + u = 255` for the falling and rising channel, an advance keeps the sum, in the channels of the level it
started in, and brings the falling one to 0 exactly when it brings the rising one to 255. -/
def Obligations.AdvanceKeepsTheChannelSum : Prop :=
  ∀ (step : Byte) (led led' : Led), led.level ≠ 3 → fallingValue led + risingValue led = 255 →
    led.advance step = some led' →
    fallingValue ⟨led'.color, led.level⟩ + risingValue ⟨led'.color, led.level⟩ = 255 ∧
    (fallingValue ⟨led'.color, led.level⟩ = 0 ↔ risingValue ⟨led'.color, led.level⟩ = 255)

/-- R148: such an LED keeps its level for fewer than `max(1, ceil(f / STEP))` advances, and at that number it takes the next
level, whose falling channel holds 255 and whose rising channel is the old untouched one. -/
def Obligations.LegTakesCeilOfFallingOverStep : Prop :=
  ∀ (step : Byte) (led : Led), step ≠ 0 → led.level ≠ 3 → fallingValue led + risingValue led = 255 →
    (∀ k, k < max 1 ((fallingValue led + step.toNat - 1) / step.toNat) →
      ∃ mid, advances step led k = some mid ∧ mid.level = led.level) ∧
    ∃ last, advances step led (max 1 ((fallingValue led + step.toNat - 1) / step.toNat)) = some last ∧
      last.level = nextLevel led.level ∧ fallingValue last = 255 ∧ risingValue last = untouchedValue led ∧
      untouchedValue last = 0

/-! ### Events and faults (R174-R183) -/

/-- R179: a completion clears OUTSTANDING, and then: in HALTED nothing; in WAIT with `DONE = 0` it sets DONE; otherwise a late
completion is absorbed; otherwise the block halts with fault code 2. -/
def Obligations.CompletionEffect : Prop :=
  ∀ s : State, s.nextMove = .completion →
    (s.ctl = .halted → step s = .next { s with schedule := s.schedule.tail, outstanding := false }) ∧
    (s.ctl = .wait → s.done = false →
      step s = .next { s with schedule := s.schedule.tail, outstanding := false, done := true }) ∧
    (s.ctl ≠ .halted → ¬(s.ctl = .wait ∧ s.done = false) → s.cfg.hasTimeout = true ∧ s.pendingLateBit = true →
      step s = .next { s with schedule := s.schedule.tail, outstanding := false, pendingLateBit := false }) ∧
    (s.ctl ≠ .halted → ¬(s.ctl = .wait ∧ s.done = false) → ¬(s.cfg.hasTimeout = true ∧ s.pendingLateBit = true) →
      step s = .next { s with schedule := s.schedule.tail, outstanding := false, faultCode := 2, ctl := .halted })

/-- R180: the end of the delay answers OK and ends a FADE_STEP; in a FADE_RUN it counts ITER modulo 2^32 and returns to EXEC. -/
def Obligations.DelayEndEffect : Prop :=
  ∀ s : State, s.nextMove = .delayEnd → s.ctl = .delay →
    (s.mode = .fadeStep →
      step s = .next { s with
        schedule := s.schedule.tail, ctl := .idle, responses := s.responses ++ [0x0000000000000000] }) ∧
    (s.mode = .fadeRun →
      step s = .next { s with
        schedule := s.schedule.tail, ctl := .exec, iter := BitVec.ofNat 32 ((s.iter.toNat + 1) % 2 ^ 32) })

/-- R174, R181: with HAS_TIMEOUT, in WAIT with `DONE = 0`, the timeout answers TRANSPORT_TIMEOUT, with data 0 for SEND and
FADE_STEP and ITER for FADE_RUN, sets PENDING_LATE and ends the command; nothing is rolled back. Without HAS_TIMEOUT no
step sets PENDING_LATE and no response is BUSY or TRANSPORT_TIMEOUT (R170). -/
def Obligations.TimeoutEffect : Prop :=
  (∀ s : State, s.nextMove = .timeout → s.cfg.hasTimeout = true → s.ctl = .wait → s.done = false →
    step s = .next { s with
      schedule := s.schedule.tail
      pendingLateBit := true
      ctl := .idle
      responses := s.responses ++
        [BitVec.ofNat 64 (0x04 * 2 ^ 56 + if s.mode = .fadeRun then s.iter.toNat else 0)] }) ∧
  (∀ s t : State, step s = .next t → s.cfg.hasTimeout = false →
    (s.pendingLateBit = false → t.pendingLateBit = false) ∧
    ∀ r : Word, t.responses = s.responses ++ [r] → (r.extractLsb' 56 8).toNat < 3)

/-- Where a delay end or a timeout is not enabled (R178, R180, R181), its move changes nothing: the model's form of an event that
does not happen (notes/assumptions/10.md), no rule of the spec. -/
def Obligations.EventsNotEnabledChangeNothing : Prop :=
  ∀ s : State,
    (s.nextMove = .delayEnd → s.ctl ≠ .delay → step s = .next { s with schedule := s.schedule.tail }) ∧
    (s.nextMove = .timeout → s.cfg.hasTimeout = false ∨ s.ctl ≠ .wait ∨ s.done = true →
      step s = .next { s with schedule := s.schedule.tail })

/-- R183: where completion and timeout come in one instant in a wait, the completion is taken: DONE is set, no response is
given and PENDING_LATE keeps its value. -/
def Obligations.CompletionBeatsTheTimeout : Prop :=
  ∀ s : State, s.nextMove = .completionWithTimeout → s.ctl = .wait → s.done = false →
    step s = .next { s with schedule := s.schedule.tail, outstanding := false, done := true }

/-- R206, R108: without HAS_TIMEOUT a core that waits on the transport goes on waiting, with the BUSY output 1 and no response,
whatever comes but a completion or a reset (the hang of R9). -/
def Obligations.WaitWithoutTimeoutEndsByCompletionOrReset : Prop :=
  ∀ s t : State, s.Waiting → s.cfg.hasTimeout = false → step s = .next t →
    s.nextMove ≠ .completion → s.nextMove ≠ .completionWithTimeout → s.nextMove ≠ .reset →
    t.Waiting ∧ t.busyOutput = true ∧ t.responses = s.responses ∧ t.submissions = s.submissions ∧ t.pb = s.pb

/-- R177, R184: in HALTED every move but reset leaves the block's own state as it is: only the host's inputs, the transport's
OUTSTANDING and the schedule can change, and no command leaves the port; FAULT_CODE keeps the first fault. Reset leads to
IDLE. -/
def Obligations.HaltedIsLeftByResetOnly : Prop :=
  ∀ s t : State, s.ctl = .halted → step s = .next t →
    (s.nextMove ≠ .reset →
      t = { s with schedule := t.schedule, port := t.port, cancel := t.cancel, outstanding := t.outstanding } ∧
      (t.port = s.port ∨ ∃ w, s.nextMove = .offer w ∧ t.port = s.port ++ [w])) ∧
    (s.nextMove = .reset → t.ctl = .idle ∧ t.faultCode = 0)

/-! ### Reset (R200, R201) -/

/-- R200, R201: a reset, in every state, puts each element at its reset value; PB has its 24 N + L entries of DUTY_WIDTH bits,
and nothing more is said of PB and MODE, which the spec leaves unspecified. -/
def Obligations.ResetRestoresEveryElement : Prop :=
  ∀ s : State, s.nextMove = .reset → ∃ t : State, step s = .next t ∧
    t.leds = s.cfg.initColors.map (fun c => ⟨c, 0⟩) ∧ t.bri = s.cfg.initBrightness ∧ t.done = false ∧
    t.pendingLateBit = false ∧ t.iter = 0 ∧ t.faultCode = 0 ∧ t.ctl = .idle ∧ t.outstanding = false ∧ t.cfg = s.cfg ∧
    t.pb.length = 24 * s.cfg.N + s.cfg.latchLen ∧ (∀ e ∈ t.pb, e < 2 ^ s.cfg.dutyWidth)

/-- R149, R200: after reset in the source's configuration GET_COLOR answers the source's four colours at level 0, and an index 4
is out of range (example E4). -/
def Obligations.ResetHoldsTheInitialColours : Prop :=
  (∃ t : State, exec (.getColor 0) State.reset = .next t ∧ t.responses = [0x0000000000FF0000]) ∧
  (∃ t : State, exec (.getColor 1) State.reset = .next t ∧ t.responses = [0x0000000000BF4000]) ∧
  (∃ t : State, exec (.getColor 2) State.reset = .next t ∧ t.responses = [0x00000000007F8000]) ∧
  (∃ t : State, exec (.getColor 3) State.reset = .next t ∧ t.responses = [0x00000000003FC000]) ∧
  (∃ t : State, exec (.getColor 4) State.reset = .next t ∧ t.responses = [0x0100000000000000])

/-! ### Invariants and whole-machine rules -/

/-- The invariant holds after reset for all legal parameters, whatever MODE and a PB of the right size hold. -/
def Obligations.ResetStatesMeetTheInvariant : Prop :=
  State.reset.Inv ∧
  ∀ (c : Config) (pb : List Nat) (mode : Mode), c.Legal → pb.length = 24 * c.N + c.latchLen →
    (∀ e ∈ pb, e < 2 ^ c.dutyWidth) → (State.resetWith c pb mode).Inv

/-- Every step, whichever agent moves, keeps the invariant: N LEDs with levels 0..2, a whole pulse buffer, the flags and
OUTSTANDING as R27, R28, R34 and R179 tie them to CTL, the sequence in flight equal to PB (R61), FAULT_CODE nonzero
exactly in HALTED. -/
def Obligations.EveryStepKeepsTheBlockConsistent : Prop :=
  ∀ s t : State, s.Inv → step s = .next t → t.Inv

/-- With a transport that keeps its contract (R187) the block never halts: no completion is spurious (R179) and no fade meets an
illegal level (R25); `DONE = 1` then holds only in WAIT (R27). -/
def Obligations.HonestTransportNeverHaltsTheBlock : Prop :=
  ∀ s t : State, s.Inv → s.ctl ≠ .halted → s.TransportKeepsContract → step s = .next t →
    t.ctl ≠ .halted ∧ (t.done = true → t.ctl = .wait)

/-- Every step answers a next state. This is the model's form: it puts every error of the spec in a next state
(notes/assumptions/21.md), and it answers the unchanged state to a core with no step to take (notes/assumptions/7.md), to an
event that is not enabled (notes/assumptions/10.md) and to a delay end in the mode of a SEND (notes/assumptions/13.md). -/
def Obligations.EveryMoveAnswersANextState : Prop :=
  ∀ s : State, ∃ t : State, step s = .next t

/-- The parameters never change (R5), and CANCEL is written by the host alone (R33). -/
def Obligations.ParametersAndCancelAreNotTheBlocksToWrite : Prop :=
  ∀ s t : State, step s = .next t → t.cfg = s.cfg ∧ ((∀ v, s.nextMove ≠ .driveCancel v) → t.cancel = s.cancel)

/-- BRI is written by an accepted SET_BRIGHTNESS and by reset, and by nothing else (R23). -/
def Obligations.BrightnessHasOneWriter : Prop :=
  ∀ s t : State, step s = .next t → t.bri ≠ s.bri →
    s.nextMove = .reset ∨ ∃ w, s.AcceptsNext w ∧ decode w = .command (.setBrightness t.bri)

/-- The colours and levels are written by an accepted SET_COLOR, by the advance of a running FADE_STEP or FADE_RUN, and by
reset; a level is never written by SET_COLOR (R22, R25). -/
def Obligations.ColourStoreAndLevelWriters : Prop :=
  ∀ s t : State, step s = .next t → t.leds ≠ s.leds →
    s.nextMove = .reset ∨
    (s.nextMove = .core ∧ s.ctl = .exec ∧ (s.mode = .fadeStep ∨ s.mode = .fadeRun)) ∨
    (∃ w idx r g b, s.AcceptsNext w ∧ decode w = .command (.setColor idx r g b) ∧
      t.leds.map Led.level = s.leds.map Led.level)

/-- R61: from a submission until its completion is consumed nothing writes PB, so that the sequence in flight equals the
snapshot taken at Submit; a reset abandons it. -/
def Obligations.PulseBufferIsNotWrittenInFlight : Prop :=
  ∀ s t : State, s.Inv → step s = .next t → s.nextMove ≠ .reset → s.ctl = .wait ∨ s.outstanding = true →
    t.pb = s.pb ∧ t.submissions = s.submissions ∧
      (t.outstanding = true → t.submissions.getLast? = some ⟨t.pb, t.cfg.channel⟩)

/-- R203, R6: a step makes at most one submission, only while none is outstanding, of exactly 24 N + L entries with CHANNEL, and
it is then outstanding with the core in WAIT. -/
def Obligations.SubmissionsAreSerialised : Prop :=
  ∀ s t : State, s.Inv → step s = .next t → t.submissions ≠ s.submissions →
    s.outstanding = false ∧ t.outstanding = true ∧ t.ctl = .wait ∧
      ∃ seq, t.submissions = s.submissions ++ [⟨seq, s.cfg.channel⟩] ∧ CarriesFrame s.cfg s.bri t.leds seq ∧
        seq.length = 24 * s.cfg.N + s.cfg.latchLen

/-- A step emits at most one response, after those already emitted, and its status is one of the five of R170 (R80, R182). -/
def Obligations.AtMostOneResponsePerStep : Prop :=
  ∀ s t : State, step s = .next t →
    t.responses = s.responses ∨
    ∃ r : Word, t.responses = s.responses ++ [r] ∧ (r.extractLsb' 56 8).toNat ≤ 4

/-- R147: CANCEL is read only at the top of FADE_RUN: with any other step next, its level does not matter. -/
def Obligations.CancelIsReadAtTheTopOfFadeRunOnly : Prop :=
  ∀ (s t : State) (v : Bool), (∀ u, s.nextMove ≠ .driveCancel u) →
    ¬(s.nextMove = .core ∧ s.ctl = .exec ∧ s.mode = .fadeRun) → step s = .next t →
    step { s with cancel := v } = .next { t with cancel := v }

/-- R29: how the controller state is left and entered, over every move of every agent. -/
def Obligations.ControllerTransitions : Prop :=
  ∀ s t : State, step s = .next t → t.ctl ≠ s.ctl →
    (t.ctl = .idle ∧ s.nextMove = .reset) ∨
    (s.ctl = .idle ∧ t.ctl = .exec ∧ s.nextMove = .core) ∨
    (s.ctl = .exec ∧ t.ctl = .idle ∧ s.mode = .fadeRun ∧ s.cancel = true ∧ s.nextMove = .core) ∨
    (s.ctl = .exec ∧ t.ctl = .wait ∧ t.outstanding = true ∧ s.nextMove = .core) ∨
    (s.ctl = .exec ∧ t.ctl = .halted ∧ t.faultCode = 1 ∧ s.nextMove = .core) ∨
    (s.ctl = .wait ∧ s.done = true ∧ t.ctl = .idle ∧ s.mode = .send ∧ s.nextMove = .core) ∨
    (s.ctl = .wait ∧ s.done = true ∧ t.ctl = .delay ∧ s.mode ≠ .send ∧ s.nextMove = .core) ∨
    (s.ctl = .wait ∧ s.done = false ∧ t.ctl = .idle ∧ s.cfg.hasTimeout = true ∧ s.nextMove = .timeout) ∨
    (s.ctl = .delay ∧ t.ctl = .idle ∧ s.mode = .fadeStep ∧ s.nextMove = .delayEnd) ∨
    (s.ctl = .delay ∧ t.ctl = .exec ∧ s.mode = .fadeRun ∧ s.nextMove = .delayEnd) ∨
    (s.ctl ≠ .halted ∧ t.ctl = .halted ∧ t.faultCode = 2 ∧
      (s.nextMove = .completion ∨ s.nextMove = .completionWithTimeout))

/-- R27, R28: DONE is set by a completion in WAIT and cleared by the consume in WAIT or by reset; PENDING_LATE is set by a timeout
and cleared by a completion or by reset; no command sets them otherwise (R36). -/
def Obligations.FlagWriters : Prop :=
  ∀ s t : State, step s = .next t →
    (s.done = false → t.done = true →
      s.ctl = .wait ∧ (s.nextMove = .completion ∨ s.nextMove = .completionWithTimeout)) ∧
    (s.done = true → t.done = false →
      s.nextMove = .reset ∨ (s.ctl = .wait ∧ s.nextMove = .core)) ∧
    (s.pendingLateBit = false → t.pendingLateBit = true → s.ctl = .wait ∧ s.cfg.hasTimeout = true ∧ s.nextMove = .timeout) ∧
    (s.pendingLateBit = true → t.pendingLateBit = false →
      s.nextMove = .reset ∨ s.nextMove = .completion ∨ s.nextMove = .completionWithTimeout)

/-! ### The assembly language (R83, R84) -/

/-- R83: a line of each of the eight commands assembles to one offered word that decodes to its command, for every number in its
field's range; `.word` offers any 64-bit value as it is; a recorded host action drives CANCEL. A number outside its range is an
assembly error wherever its line stands. -/
def Obligations.AssembledLinesDecodeToTheirCommands : Prop :=
  (∀ (n : Nat) (line : Asm) (i : Instr),
    (line, i) ∈ [(Asm.nop, Instr.nop), (.send, .send), (.fadeStep, .fadeStep), (.fadeRun, .fadeRun),
      (.getBrightness, .getBrightness)] →
    ∃ w, assemble n [line] = some [.offer w] ∧ decode w = .command i) ∧
  (∀ n idx r g b : Nat, idx < 65536 → r < 256 → g < 256 → b < 256 →
    ∃ w i, assemble n [.setColor idx r g b] = some [.offer w] ∧ decode w = .command i ∧
      ∃ fi fr fg fb, i = .setColor fi fr fg fb ∧ fi.toNat = idx ∧ fr.toNat = r ∧ fg.toNat = g ∧ fb.toNat = b) ∧
  (∀ n lvl : Nat, lvl < 256 →
    ∃ w f, assemble n [.setBrightness lvl] = some [.offer w] ∧ decode w = .command (.setBrightness f) ∧ f.toNat = lvl) ∧
  (∀ n idx : Nat, idx < 65536 →
    ∃ w f, assemble n [.getColor idx] = some [.offer w] ∧ decode w = .command (.getColor f) ∧ f.toNat = idx) ∧
  (∀ n v : Nat, v < 2 ^ 64 → ∃ w : Word, assemble n [.word v] = some [.offer w] ∧ w.toNat = v) ∧
  (∀ (n : Nat) (level : Bool), assemble n [.hostCancel level] = some [.driveCancel level]) ∧
  (∀ (n idx r g b : Nat) (before more : List Asm), 65536 ≤ idx ∨ 256 ≤ r ∨ 256 ≤ g ∨ 256 ≤ b →
    assemble n (before ++ .setColor idx r g b :: more) = none) ∧
  (∀ (n lvl : Nat) (before more : List Asm), 256 ≤ lvl → assemble n (before ++ .setBrightness lvl :: more) = none) ∧
  (∀ (n idx : Nat) (before more : List Asm), 65536 ≤ idx → assemble n (before ++ .getColor idx :: more) = none) ∧
  (∀ (n v : Nat) (before more : List Asm), 2 ^ 64 ≤ v → assemble n (before ++ .word v :: more) = none)

/-- R84: each pseudo-instruction assembles to what its expansion assembles to. -/
def Obligations.PseudoInstructionsAssembleAsTheirExpansions : Prop :=
  (∀ n r g b : Nat, n ≤ 65536 → r < 256 → g < 256 → b < 256 →
    assemble n [.setAll r g b] = assemble n ((List.range n).map fun i => .setColor i r g b)) ∧
  (∀ n lvl : Nat, lvl < 256 → assemble n [.showAt lvl] = assemble n [.setBrightness lvl, .send]) ∧
  (∀ n k : Nat, assemble n [.fadeSteps k] = assemble n (List.replicate k .fadeStep)) ∧
  (∀ n : Nat, assemble n [.clear] = assemble n [.setAll 0 0 0, .send])
end

