-- ==== Sys2Proof/Laws/Decode.lean ====
section
/-! SUPPORT. The bits of an encoded word, format by format (R71-R74), and when a row of the opcode map accepts a word. -/

namespace Sys2Proof

/-- Format Z is the opcode over 56 zero bits (R71). -/
theorem getLsbD_formatZ (opc : Byte) (k : Nat) :
    (formatZ opc).getLsbD k = (decide (56 ≤ k) && opc.getLsbD (k - 56)) := by
  change (opc ++ 0#56 : BitVec (8 + 56)).getLsbD k = _
  rw [BitVec.getLsbD_append]
  split <;> simp <;> omega

/-- Format B is the opcode, 48 zero bits and the level (R74). -/
theorem getLsbD_formatB (opc lvl : Byte) (k : Nat) :
    (formatB opc lvl).getLsbD k =
      if k < 8 then lvl.getLsbD k else decide (56 ≤ k) && opc.getLsbD (k - 56) := by
  change (opc ++ 0#48 ++ lvl : BitVec (8 + 48 + 8)).getLsbD k = _
  rw [BitVec.getLsbD_append, BitVec.getLsbD_append]
  split
  · rfl
  · split
    · have : ¬ 56 ≤ k := by omega
      simp [this]
    · rw [show k - 8 - 48 = k - 56 by omega, decide_eq_true (show 56 ≤ k by omega), Bool.true_and]

/-- Format I is the opcode, the index and 40 zero bits (R73). -/
theorem getLsbD_formatI (opc : Byte) (idx : LedIndex) (k : Nat) :
    (formatI opc idx).getLsbD k =
      if k < 40 then false else if k < 56 then idx.getLsbD (k - 40) else opc.getLsbD (k - 56) := by
  change (opc ++ idx ++ 0#40 : BitVec (8 + 16 + 40)).getLsbD k = _
  rw [BitVec.getLsbD_append, BitVec.getLsbD_append]
  split
  · simp
  · rw [show k - 40 - 16 = k - 56 by omega]
    split <;> split <;> first | rfl | omega

/-- Format C is the opcode, the index, 16 zero bits, red, green and blue (R72). -/
theorem getLsbD_formatC (opc : Byte) (idx : LedIndex) (r g b : Byte) (k : Nat) :
    (formatC opc idx r g b).getLsbD k =
      if k < 8 then b.getLsbD k else if k < 16 then g.getLsbD (k - 8) else if k < 24 then r.getLsbD (k - 16)
      else if k < 40 then false else if k < 56 then idx.getLsbD (k - 40) else opc.getLsbD (k - 56) := by
  change (opc ++ idx ++ 0#16 ++ r ++ g ++ b : BitVec (8 + 16 + 16 + 8 + 8 + 8)).getLsbD k = _
  simp only [BitVec.getLsbD_append, BitVec.getLsbD_zero]
  rw [show k - 8 - 8 = k - 16 by omega, show k - 16 - 8 = k - 24 by omega, show k - 24 - 16 = k - 40 by omega,
    show k - 40 - 16 = k - 56 by omega]
  repeat' split
  all_goals first | rfl | omega

/-- A row accepts a word when the word has the row's bits wherever the mask is set (R76). -/
theorem accepts_iff (row : Row) (w : Word) :
    row.accepts w = true ↔ ∀ k, k < 64 → (w.getLsbD k && row.mask.getLsbD k) = row.pattern.getLsbD k := by
  rw [Row.accepts, beq_iff_eq]
  constructor
  · intro h k _
    rw [← BitVec.getLsbD_and, h]
  · intro h
    apply BitVec.eq_of_getLsbD_eq
    intro k hk
    rw [BitVec.getLsbD_and, h k hk]

/-- A word that a row accepts has the row's opcode (R76). -/
theorem opcode_of_accepts {row : Row} (h : row ∈ opcodeMap) {w : Word} (ha : row.accepts w = true) :
    opcField w = opcField row.pattern := by
  rw [accepts_iff] at ha
  apply BitVec.eq_of_getLsbD_eq
  intro k hk
  have hbit := ha (56 + k) (by omega)
  simp only [opcField, BitVec.getLsbD_extractLsb', hk, decide_true, Bool.true_and]
  rw [← hbit]
  simp only [opcodeMap, List.mem_cons, List.not_mem_nil, or_false] at h
  rcases h with rfl | rfl | rfl | rfl | rfl | rfl | rfl | rfl <;> interval_cases k <;> simp

/-- A word that decodes to a command is accepted by a row that reads the command from it (R76). -/
theorem decode_cases {w : Word} {i : Instr} (h : decode w = .command i) :
    ∃ row ∈ opcodeMap, row.accepts w = true ∧ i = row.read w := by
  unfold decode at h
  split at h
  · rename_i row hf
    exact ⟨row, List.mem_of_find?_eq_some hf, by simpa using List.find?_some hf, by simpa using h.symm⟩
  · cases h

/-- A word no row accepts is illegal, and its opcode says why (R76, R78, R79). -/
theorem decode_of_no_row {w : Word} (h : ∀ row ∈ opcodeMap, row.accepts w = false) :
    decode w = .illegal (if (opcField w).toNat < 8 then .reservedField else .reservedOpcode) := by
  have hn : opcodeMap.find? (fun row => row.accepts w) = none := by
    rw [List.find?_eq_none]
    intro row hr
    simp [h row hr]
  simp [decode, hn]

end Sys2Proof
end

