-- ==== Sys2Proof/Laws/State.lean ====
section
/-! SUPPORT. One lemma per field per update of State, true by rfl: what each named update writes and that it leaves every other
field alone. -/

namespace Sys2Proof.Machine

open Sys2Proof

/-! ### `State.writeColor` writes the colour of one LED (R111) -/

@[simp] theorem writeColor_cfg (s : State) (i : Nat) (c : Color) : (s.writeColor i c).cfg = s.cfg := rfl
@[simp] theorem writeColor_leds (s : State) (i : Nat) (c : Color) : (s.writeColor i c).leds = s.leds.modify i fun led => { led with color := c } := rfl
@[simp] theorem writeColor_bri (s : State) (i : Nat) (c : Color) : (s.writeColor i c).bri = s.bri := rfl
@[simp] theorem writeColor_pb (s : State) (i : Nat) (c : Color) : (s.writeColor i c).pb = s.pb := rfl
@[simp] theorem writeColor_done (s : State) (i : Nat) (c : Color) : (s.writeColor i c).done = s.done := rfl
@[simp] theorem writeColor_pendingLateBit (s : State) (i : Nat) (c : Color) : (s.writeColor i c).pendingLateBit = s.pendingLateBit := rfl
@[simp] theorem writeColor_ctl (s : State) (i : Nat) (c : Color) : (s.writeColor i c).ctl = s.ctl := rfl
@[simp] theorem writeColor_mode (s : State) (i : Nat) (c : Color) : (s.writeColor i c).mode = s.mode := rfl
@[simp] theorem writeColor_iter (s : State) (i : Nat) (c : Color) : (s.writeColor i c).iter = s.iter := rfl
@[simp] theorem writeColor_faultCode (s : State) (i : Nat) (c : Color) : (s.writeColor i c).faultCode = s.faultCode := rfl
@[simp] theorem writeColor_responses (s : State) (i : Nat) (c : Color) : (s.writeColor i c).responses = s.responses := rfl
@[simp] theorem writeColor_outstanding (s : State) (i : Nat) (c : Color) : (s.writeColor i c).outstanding = s.outstanding := rfl
@[simp] theorem writeColor_submissions (s : State) (i : Nat) (c : Color) : (s.writeColor i c).submissions = s.submissions := rfl
@[simp] theorem writeColor_cancel (s : State) (i : Nat) (c : Color) : (s.writeColor i c).cancel = s.cancel := rfl
@[simp] theorem writeColor_port (s : State) (i : Nat) (c : Color) : (s.writeColor i c).port = s.port := rfl
@[simp] theorem writeColor_schedule (s : State) (i : Nat) (c : Color) : (s.writeColor i c).schedule = s.schedule := rfl
@[simp] theorem writeColor_freeCtr (s : State) (i : Nat) (c : Color) : (s.writeColor i c).freeCtr = s.freeCtr := rfl

/-! ### `State.writeBrightness` writes BRI (R112) -/

@[simp] theorem writeBrightness_cfg (s : State) (v : Byte) : (s.writeBrightness v).cfg = s.cfg := rfl
@[simp] theorem writeBrightness_leds (s : State) (v : Byte) : (s.writeBrightness v).leds = s.leds := rfl
@[simp] theorem writeBrightness_bri (s : State) (v : Byte) : (s.writeBrightness v).bri = v := rfl
@[simp] theorem writeBrightness_pb (s : State) (v : Byte) : (s.writeBrightness v).pb = s.pb := rfl
@[simp] theorem writeBrightness_done (s : State) (v : Byte) : (s.writeBrightness v).done = s.done := rfl
@[simp] theorem writeBrightness_pendingLateBit (s : State) (v : Byte) : (s.writeBrightness v).pendingLateBit = s.pendingLateBit := rfl
@[simp] theorem writeBrightness_ctl (s : State) (v : Byte) : (s.writeBrightness v).ctl = s.ctl := rfl
@[simp] theorem writeBrightness_mode (s : State) (v : Byte) : (s.writeBrightness v).mode = s.mode := rfl
@[simp] theorem writeBrightness_iter (s : State) (v : Byte) : (s.writeBrightness v).iter = s.iter := rfl
@[simp] theorem writeBrightness_faultCode (s : State) (v : Byte) : (s.writeBrightness v).faultCode = s.faultCode := rfl
@[simp] theorem writeBrightness_responses (s : State) (v : Byte) : (s.writeBrightness v).responses = s.responses := rfl
@[simp] theorem writeBrightness_outstanding (s : State) (v : Byte) : (s.writeBrightness v).outstanding = s.outstanding := rfl
@[simp] theorem writeBrightness_submissions (s : State) (v : Byte) : (s.writeBrightness v).submissions = s.submissions := rfl
@[simp] theorem writeBrightness_cancel (s : State) (v : Byte) : (s.writeBrightness v).cancel = s.cancel := rfl
@[simp] theorem writeBrightness_port (s : State) (v : Byte) : (s.writeBrightness v).port = s.port := rfl
@[simp] theorem writeBrightness_schedule (s : State) (v : Byte) : (s.writeBrightness v).schedule = s.schedule := rfl
@[simp] theorem writeBrightness_freeCtr (s : State) (v : Byte) : (s.writeBrightness v).freeCtr = s.freeCtr := rfl

/-! ### `State.raiseDone` writes DONE (R179) -/

@[simp] theorem raiseDone_cfg (s : State) : (s.raiseDone).cfg = s.cfg := rfl
@[simp] theorem raiseDone_leds (s : State) : (s.raiseDone).leds = s.leds := rfl
@[simp] theorem raiseDone_bri (s : State) : (s.raiseDone).bri = s.bri := rfl
@[simp] theorem raiseDone_pb (s : State) : (s.raiseDone).pb = s.pb := rfl
@[simp] theorem raiseDone_done (s : State) : (s.raiseDone).done = true := rfl
@[simp] theorem raiseDone_pendingLateBit (s : State) : (s.raiseDone).pendingLateBit = s.pendingLateBit := rfl
@[simp] theorem raiseDone_ctl (s : State) : (s.raiseDone).ctl = s.ctl := rfl
@[simp] theorem raiseDone_mode (s : State) : (s.raiseDone).mode = s.mode := rfl
@[simp] theorem raiseDone_iter (s : State) : (s.raiseDone).iter = s.iter := rfl
@[simp] theorem raiseDone_faultCode (s : State) : (s.raiseDone).faultCode = s.faultCode := rfl
@[simp] theorem raiseDone_responses (s : State) : (s.raiseDone).responses = s.responses := rfl
@[simp] theorem raiseDone_outstanding (s : State) : (s.raiseDone).outstanding = s.outstanding := rfl
@[simp] theorem raiseDone_submissions (s : State) : (s.raiseDone).submissions = s.submissions := rfl
@[simp] theorem raiseDone_cancel (s : State) : (s.raiseDone).cancel = s.cancel := rfl
@[simp] theorem raiseDone_port (s : State) : (s.raiseDone).port = s.port := rfl
@[simp] theorem raiseDone_schedule (s : State) : (s.raiseDone).schedule = s.schedule := rfl
@[simp] theorem raiseDone_freeCtr (s : State) : (s.raiseDone).freeCtr = s.freeCtr := rfl

/-! ### `State.clearDone` writes DONE (R108) -/

@[simp] theorem clearDone_cfg (s : State) : (s.clearDone).cfg = s.cfg := rfl
@[simp] theorem clearDone_leds (s : State) : (s.clearDone).leds = s.leds := rfl
@[simp] theorem clearDone_bri (s : State) : (s.clearDone).bri = s.bri := rfl
@[simp] theorem clearDone_pb (s : State) : (s.clearDone).pb = s.pb := rfl
@[simp] theorem clearDone_done (s : State) : (s.clearDone).done = false := rfl
@[simp] theorem clearDone_pendingLateBit (s : State) : (s.clearDone).pendingLateBit = s.pendingLateBit := rfl
@[simp] theorem clearDone_ctl (s : State) : (s.clearDone).ctl = s.ctl := rfl
@[simp] theorem clearDone_mode (s : State) : (s.clearDone).mode = s.mode := rfl
@[simp] theorem clearDone_iter (s : State) : (s.clearDone).iter = s.iter := rfl
@[simp] theorem clearDone_faultCode (s : State) : (s.clearDone).faultCode = s.faultCode := rfl
@[simp] theorem clearDone_responses (s : State) : (s.clearDone).responses = s.responses := rfl
@[simp] theorem clearDone_outstanding (s : State) : (s.clearDone).outstanding = s.outstanding := rfl
@[simp] theorem clearDone_submissions (s : State) : (s.clearDone).submissions = s.submissions := rfl
@[simp] theorem clearDone_cancel (s : State) : (s.clearDone).cancel = s.cancel := rfl
@[simp] theorem clearDone_port (s : State) : (s.clearDone).port = s.port := rfl
@[simp] theorem clearDone_schedule (s : State) : (s.clearDone).schedule = s.schedule := rfl
@[simp] theorem clearDone_freeCtr (s : State) : (s.clearDone).freeCtr = s.freeCtr := rfl

/-! ### `State.writePendingLate` writes PENDING_LATE (R28) -/

@[simp] theorem writePendingLate_cfg (s : State) (v : Bool) : (s.writePendingLate v).cfg = s.cfg := rfl
@[simp] theorem writePendingLate_leds (s : State) (v : Bool) : (s.writePendingLate v).leds = s.leds := rfl
@[simp] theorem writePendingLate_bri (s : State) (v : Bool) : (s.writePendingLate v).bri = s.bri := rfl
@[simp] theorem writePendingLate_pb (s : State) (v : Bool) : (s.writePendingLate v).pb = s.pb := rfl
@[simp] theorem writePendingLate_done (s : State) (v : Bool) : (s.writePendingLate v).done = s.done := rfl
@[simp] theorem writePendingLate_pendingLateBit (s : State) (v : Bool) : (s.writePendingLate v).pendingLateBit = v := rfl
@[simp] theorem writePendingLate_ctl (s : State) (v : Bool) : (s.writePendingLate v).ctl = s.ctl := rfl
@[simp] theorem writePendingLate_mode (s : State) (v : Bool) : (s.writePendingLate v).mode = s.mode := rfl
@[simp] theorem writePendingLate_iter (s : State) (v : Bool) : (s.writePendingLate v).iter = s.iter := rfl
@[simp] theorem writePendingLate_faultCode (s : State) (v : Bool) : (s.writePendingLate v).faultCode = s.faultCode := rfl
@[simp] theorem writePendingLate_responses (s : State) (v : Bool) : (s.writePendingLate v).responses = s.responses := rfl
@[simp] theorem writePendingLate_outstanding (s : State) (v : Bool) : (s.writePendingLate v).outstanding = s.outstanding := rfl
@[simp] theorem writePendingLate_submissions (s : State) (v : Bool) : (s.writePendingLate v).submissions = s.submissions := rfl
@[simp] theorem writePendingLate_cancel (s : State) (v : Bool) : (s.writePendingLate v).cancel = s.cancel := rfl
@[simp] theorem writePendingLate_port (s : State) (v : Bool) : (s.writePendingLate v).port = s.port := rfl
@[simp] theorem writePendingLate_schedule (s : State) (v : Bool) : (s.writePendingLate v).schedule = s.schedule := rfl
@[simp] theorem writePendingLate_freeCtr (s : State) (v : Bool) : (s.writePendingLate v).freeCtr = s.freeCtr := rfl

/-! ### `State.respond` writes the response record (R80) -/

@[simp] theorem respond_cfg (s : State) (st : Status) (d : Data) : (s.respond st d).cfg = s.cfg := rfl
@[simp] theorem respond_leds (s : State) (st : Status) (d : Data) : (s.respond st d).leds = s.leds := rfl
@[simp] theorem respond_bri (s : State) (st : Status) (d : Data) : (s.respond st d).bri = s.bri := rfl
@[simp] theorem respond_pb (s : State) (st : Status) (d : Data) : (s.respond st d).pb = s.pb := rfl
@[simp] theorem respond_done (s : State) (st : Status) (d : Data) : (s.respond st d).done = s.done := rfl
@[simp] theorem respond_pendingLateBit (s : State) (st : Status) (d : Data) : (s.respond st d).pendingLateBit = s.pendingLateBit := rfl
@[simp] theorem respond_ctl (s : State) (st : Status) (d : Data) : (s.respond st d).ctl = s.ctl := rfl
@[simp] theorem respond_mode (s : State) (st : Status) (d : Data) : (s.respond st d).mode = s.mode := rfl
@[simp] theorem respond_iter (s : State) (st : Status) (d : Data) : (s.respond st d).iter = s.iter := rfl
@[simp] theorem respond_faultCode (s : State) (st : Status) (d : Data) : (s.respond st d).faultCode = s.faultCode := rfl
@[simp] theorem respond_responses (s : State) (st : Status) (d : Data) : (s.respond st d).responses = s.responses ++ [responseWord st d] := rfl
@[simp] theorem respond_outstanding (s : State) (st : Status) (d : Data) : (s.respond st d).outstanding = s.outstanding := rfl
@[simp] theorem respond_submissions (s : State) (st : Status) (d : Data) : (s.respond st d).submissions = s.submissions := rfl
@[simp] theorem respond_cancel (s : State) (st : Status) (d : Data) : (s.respond st d).cancel = s.cancel := rfl
@[simp] theorem respond_port (s : State) (st : Status) (d : Data) : (s.respond st d).port = s.port := rfl
@[simp] theorem respond_schedule (s : State) (st : Status) (d : Data) : (s.respond st d).schedule = s.schedule := rfl
@[simp] theorem respond_freeCtr (s : State) (st : Status) (d : Data) : (s.respond st d).freeCtr = s.freeCtr := rfl

/-! ### `State.goto` writes CTL (R29) -/

@[simp] theorem goto_cfg (s : State) (c : Ctl) : (s.goto c).cfg = s.cfg := rfl
@[simp] theorem goto_leds (s : State) (c : Ctl) : (s.goto c).leds = s.leds := rfl
@[simp] theorem goto_bri (s : State) (c : Ctl) : (s.goto c).bri = s.bri := rfl
@[simp] theorem goto_pb (s : State) (c : Ctl) : (s.goto c).pb = s.pb := rfl
@[simp] theorem goto_done (s : State) (c : Ctl) : (s.goto c).done = s.done := rfl
@[simp] theorem goto_pendingLateBit (s : State) (c : Ctl) : (s.goto c).pendingLateBit = s.pendingLateBit := rfl
@[simp] theorem goto_ctl (s : State) (c : Ctl) : (s.goto c).ctl = c := rfl
@[simp] theorem goto_mode (s : State) (c : Ctl) : (s.goto c).mode = s.mode := rfl
@[simp] theorem goto_iter (s : State) (c : Ctl) : (s.goto c).iter = s.iter := rfl
@[simp] theorem goto_faultCode (s : State) (c : Ctl) : (s.goto c).faultCode = s.faultCode := rfl
@[simp] theorem goto_responses (s : State) (c : Ctl) : (s.goto c).responses = s.responses := rfl
@[simp] theorem goto_outstanding (s : State) (c : Ctl) : (s.goto c).outstanding = s.outstanding := rfl
@[simp] theorem goto_submissions (s : State) (c : Ctl) : (s.goto c).submissions = s.submissions := rfl
@[simp] theorem goto_cancel (s : State) (c : Ctl) : (s.goto c).cancel = s.cancel := rfl
@[simp] theorem goto_port (s : State) (c : Ctl) : (s.goto c).port = s.port := rfl
@[simp] theorem goto_schedule (s : State) (c : Ctl) : (s.goto c).schedule = s.schedule := rfl
@[simp] theorem goto_freeCtr (s : State) (c : Ctl) : (s.goto c).freeCtr = s.freeCtr := rfl

/-! ### `State.raiseFault` writes FAULT_CODE and CTL (R176) -/

@[simp] theorem raiseFault_cfg (s : State) (f : FatalFault) : (s.raiseFault f).cfg = s.cfg := rfl
@[simp] theorem raiseFault_leds (s : State) (f : FatalFault) : (s.raiseFault f).leds = s.leds := rfl
@[simp] theorem raiseFault_bri (s : State) (f : FatalFault) : (s.raiseFault f).bri = s.bri := rfl
@[simp] theorem raiseFault_pb (s : State) (f : FatalFault) : (s.raiseFault f).pb = s.pb := rfl
@[simp] theorem raiseFault_done (s : State) (f : FatalFault) : (s.raiseFault f).done = s.done := rfl
@[simp] theorem raiseFault_pendingLateBit (s : State) (f : FatalFault) : (s.raiseFault f).pendingLateBit = s.pendingLateBit := rfl
@[simp] theorem raiseFault_ctl (s : State) (f : FatalFault) : (s.raiseFault f).ctl = .halted := rfl
@[simp] theorem raiseFault_mode (s : State) (f : FatalFault) : (s.raiseFault f).mode = s.mode := rfl
@[simp] theorem raiseFault_iter (s : State) (f : FatalFault) : (s.raiseFault f).iter = s.iter := rfl
@[simp] theorem raiseFault_faultCode (s : State) (f : FatalFault) : (s.raiseFault f).faultCode = f.code := rfl
@[simp] theorem raiseFault_responses (s : State) (f : FatalFault) : (s.raiseFault f).responses = s.responses := rfl
@[simp] theorem raiseFault_outstanding (s : State) (f : FatalFault) : (s.raiseFault f).outstanding = s.outstanding := rfl
@[simp] theorem raiseFault_submissions (s : State) (f : FatalFault) : (s.raiseFault f).submissions = s.submissions := rfl
@[simp] theorem raiseFault_cancel (s : State) (f : FatalFault) : (s.raiseFault f).cancel = s.cancel := rfl
@[simp] theorem raiseFault_port (s : State) (f : FatalFault) : (s.raiseFault f).port = s.port := rfl
@[simp] theorem raiseFault_schedule (s : State) (f : FatalFault) : (s.raiseFault f).schedule = s.schedule := rfl
@[simp] theorem raiseFault_freeCtr (s : State) (f : FatalFault) : (s.raiseFault f).freeCtr = s.freeCtr := rfl

/-! ### `State.render` writes PB (R104, R105) -/

@[simp] theorem render_cfg (s : State) : (s.render).cfg = s.cfg := rfl
@[simp] theorem render_leds (s : State) : (s.render).leds = s.leds := rfl
@[simp] theorem render_bri (s : State) : (s.render).bri = s.bri := rfl
@[simp] theorem render_pb (s : State) : (s.render).pb = pulseSequence s.cfg s.bri (s.leds.map Led.color) := rfl
@[simp] theorem render_done (s : State) : (s.render).done = s.done := rfl
@[simp] theorem render_pendingLateBit (s : State) : (s.render).pendingLateBit = s.pendingLateBit := rfl
@[simp] theorem render_ctl (s : State) : (s.render).ctl = s.ctl := rfl
@[simp] theorem render_mode (s : State) : (s.render).mode = s.mode := rfl
@[simp] theorem render_iter (s : State) : (s.render).iter = s.iter := rfl
@[simp] theorem render_faultCode (s : State) : (s.render).faultCode = s.faultCode := rfl
@[simp] theorem render_responses (s : State) : (s.render).responses = s.responses := rfl
@[simp] theorem render_outstanding (s : State) : (s.render).outstanding = s.outstanding := rfl
@[simp] theorem render_submissions (s : State) : (s.render).submissions = s.submissions := rfl
@[simp] theorem render_cancel (s : State) : (s.render).cancel = s.cancel := rfl
@[simp] theorem render_port (s : State) : (s.render).port = s.port := rfl
@[simp] theorem render_schedule (s : State) : (s.render).schedule = s.schedule := rfl
@[simp] theorem render_freeCtr (s : State) : (s.render).freeCtr = s.freeCtr := rfl

/-! ### `State.submit` writes the transport's state (R107) -/

@[simp] theorem submit_cfg (s : State) : (s.submit).cfg = s.cfg := rfl
@[simp] theorem submit_leds (s : State) : (s.submit).leds = s.leds := rfl
@[simp] theorem submit_bri (s : State) : (s.submit).bri = s.bri := rfl
@[simp] theorem submit_pb (s : State) : (s.submit).pb = s.pb := rfl
@[simp] theorem submit_done (s : State) : (s.submit).done = s.done := rfl
@[simp] theorem submit_pendingLateBit (s : State) : (s.submit).pendingLateBit = s.pendingLateBit := rfl
@[simp] theorem submit_ctl (s : State) : (s.submit).ctl = s.ctl := rfl
@[simp] theorem submit_mode (s : State) : (s.submit).mode = s.mode := rfl
@[simp] theorem submit_iter (s : State) : (s.submit).iter = s.iter := rfl
@[simp] theorem submit_faultCode (s : State) : (s.submit).faultCode = s.faultCode := rfl
@[simp] theorem submit_responses (s : State) : (s.submit).responses = s.responses := rfl
@[simp] theorem submit_outstanding (s : State) : (s.submit).outstanding = true := rfl
@[simp] theorem submit_submissions (s : State) : (s.submit).submissions = s.submissions ++ [⟨s.pb, s.cfg.channel⟩] := rfl
@[simp] theorem submit_cancel (s : State) : (s.submit).cancel = s.cancel := rfl
@[simp] theorem submit_port (s : State) : (s.submit).port = s.port := rfl
@[simp] theorem submit_schedule (s : State) : (s.submit).schedule = s.schedule := rfl
@[simp] theorem submit_freeCtr (s : State) : (s.submit).freeCtr = s.freeCtr := rfl

/-! ### `State.popMove` writes the schedule -/

@[simp] theorem popMove_cfg (s : State) : (s.popMove).cfg = s.cfg := rfl
@[simp] theorem popMove_leds (s : State) : (s.popMove).leds = s.leds := rfl
@[simp] theorem popMove_bri (s : State) : (s.popMove).bri = s.bri := rfl
@[simp] theorem popMove_pb (s : State) : (s.popMove).pb = s.pb := rfl
@[simp] theorem popMove_done (s : State) : (s.popMove).done = s.done := rfl
@[simp] theorem popMove_pendingLateBit (s : State) : (s.popMove).pendingLateBit = s.pendingLateBit := rfl
@[simp] theorem popMove_ctl (s : State) : (s.popMove).ctl = s.ctl := rfl
@[simp] theorem popMove_mode (s : State) : (s.popMove).mode = s.mode := rfl
@[simp] theorem popMove_iter (s : State) : (s.popMove).iter = s.iter := rfl
@[simp] theorem popMove_faultCode (s : State) : (s.popMove).faultCode = s.faultCode := rfl
@[simp] theorem popMove_responses (s : State) : (s.popMove).responses = s.responses := rfl
@[simp] theorem popMove_outstanding (s : State) : (s.popMove).outstanding = s.outstanding := rfl
@[simp] theorem popMove_submissions (s : State) : (s.popMove).submissions = s.submissions := rfl
@[simp] theorem popMove_cancel (s : State) : (s.popMove).cancel = s.cancel := rfl
@[simp] theorem popMove_port (s : State) : (s.popMove).port = s.port := rfl
@[simp] theorem popMove_schedule (s : State) : (s.popMove).schedule = s.schedule.tail := rfl
@[simp] theorem popMove_freeCtr (s : State) : (s.popMove).freeCtr = s.freeCtr := rfl

end Sys2Proof.Machine
end

