-- ==== Sys2Proof/Laws/Ops.lean ====
section
/-! SUPPORT. One lemma per shared operation, saying what it does, for proofs to cite instead of unfolding it. -/

namespace Sys2Proof.Machine

open Sys2Proof

/-! ### Operands (R51) -/

theorem validIndex_eq_true_iff (s : State) (idx : LedIndex) : s.validIndex idx = true ↔ idx.toNat < s.numLeds := by
  simp [State.validIndex]

theorem validIndex_eq_false_iff (s : State) (idx : LedIndex) : s.validIndex idx = false ↔ s.numLeds ≤ idx.toNat := by
  simp [State.validIndex]

/-- A colour write keeps the number of LEDs. -/
@[simp] theorem writeColor_numLeds (s : State) (i : Nat) (c : Color) : (s.writeColor i c).numLeds = s.numLeds := by
  simp [State.numLeds]

/-- A colour write changes no level (R25, D38). -/
theorem writeColor_levels (s : State) (i : Nat) (c : Color) :
    (s.writeColor i c).leds.map Led.level = s.leds.map Led.level := by
  apply List.ext_getElem?
  intro k
  simp only [writeColor_leds, List.getElem?_map, List.getElem?_modify]
  cases s.leds[k]? with
  | none => rfl
  | some led => by_cases h : i = k <;> simp [h]

/-- A colour write changes no other LED (R111). -/
theorem writeColor_other (s : State) {i k : Nat} (c : Color) (h : k ≠ i) : (s.writeColor i c).leds[k]? = s.leds[k]? := by
  simp only [writeColor_leds, List.getElem?_modify]
  cases s.leds[k]? with
  | none => rfl
  | some led => simp [Ne.symm h]

/-! ### Acceptance and course of a command (R85) -/

theorem singleStep_of_idle {s : State} (h : s.ctl = .idle) (body : State → State) : s.singleStep body = body s := by
  simp [State.singleStep, h]

theorem singleStep_of_not_idle {s : State} (h : s.ctl ≠ .idle) (body : State → State) : s.singleStep body = s := by
  unfold State.singleStep; split <;> simp_all

theorem pendingLate_eq_true_iff (s : State) :
    s.pendingLate = true ↔ s.cfg.hasTimeout = true ∧ s.pendingLateBit = true := by
  simp [State.pendingLate]

theorem pendingLate_eq_false_iff (s : State) :
    s.pendingLate = false ↔ s.cfg.hasTimeout = false ∨ s.pendingLateBit = false := by
  simp only [State.pendingLate, Bool.and_eq_false_iff]

theorem start_of_busy {s : State} (h : s.pendingLate = true) (m : Mode) : s.start m = s.respond .busy 0 := by
  simp [State.start, h]

theorem start_of_ready {s : State} (h : s.pendingLate = false) (m : Mode) :
    s.start m = { s with mode := m, ctl := .exec, iter := if m = .fadeRun then 0 else s.iter } := by
  simp [State.start, h]

theorem consume_of_not_done {s : State} (h : s.done = false) : s.consume = s := by simp [State.consume, h]

/-- Everything a step of a multi-step command can do (R29, R85, R108). -/
theorem multiStep_cases (s : State) (m : Mode) (body : State → State) :
    (s.ctl = .idle ∧ s.multiStep m body = s.start m) ∨
    (s.ctl = .exec ∧ s.mode = m ∧ s.multiStep m body = body s) ∨
    (s.ctl = .wait ∧ s.mode = m ∧ s.multiStep m body = s.consume) ∨
    (s.ctl ≠ .idle ∧ s.multiStep m body = s) := by
  unfold State.multiStep
  cases hc : s.ctl <;> by_cases hm : s.mode = m <;> simp [hm]

/-- Everything a consume can do (R108). -/
theorem consume_cases (s : State) :
    (s.done = false ∧ s.consume = s) ∨
    (s.done = true ∧ s.mode = .send ∧ s.consume = (s.clearDone.respond .ok 0).goto .idle) ∨
    (s.done = true ∧ s.mode ≠ .send ∧ s.consume = s.clearDone.goto .delay) := by
  unfold State.consume
  cases hd : s.done <;> cases hm : s.mode <;> simp

/-! ### Responses (R80) -/

/-- The status of a response word (R80, R170). -/
theorem responseWord_status (st : Status) (d : Data) : (responseWord st d).extractLsb' 56 8 = st.code := by
  apply BitVec.eq_of_getLsbD_eq
  intro k hk
  rw [BitVec.getLsbD_extractLsb']
  change (decide (k < 8) && (st.code ++ d : BitVec (8 + 56)).getLsbD (56 + k)) = _
  rw [BitVec.getLsbD_append]
  simp [hk]

/-- A response word as a number (R80). -/
theorem responseWord_toNat (st : Status) (d : Data) : (responseWord st d).toNat = st.code.toNat * 2 ^ 56 + d.toNat := by
  have hd := d.isLt
  change (st.code ++ d : BitVec (8 + 56)).toNat = _
  rw [BitVec.toNat_append, ← Nat.shiftLeft_add_eq_or_of_lt hd, Nat.shiftLeft_eq]

/-! ### The datapath (R100-R104) -/

theorem scale_toNat (c b : Byte) : (scale c b).toNat = scaledNat c b := by
  have h : c.toNat * b.toNat ≤ 255 * 255 := Nat.mul_le_mul (by omega) (by omega)
  have h2 : c.toNat * b.toNat / 255 ≤ 255 := by omega
  simp only [scale, scaledNat, BitVec.toNat_ofNat]
  omega

theorem grb_toNat (c : Color) (b : Byte) : (grb c b).toNat = grbNat c b := by
  have hg := scale_toNat c.g b; have hr := scale_toNat c.r b; have hb := scale_toNat c.b b
  have h1 := (scale c.r b).isLt
  have h2 := (scale c.b b).isLt
  simp only [grb, BitVec.toNat_append, grbNat, ← hg, ← hr, ← hb]
  rw [← Nat.shiftLeft_add_eq_or_of_lt h2, ← Nat.shiftLeft_add_eq_or_of_lt h1, Nat.shiftLeft_eq, Nat.shiftLeft_eq]
  omega

@[simp] theorem wordPulses_length (cfg : Config) (w : BitVec 24) : (wordPulses cfg w).length = 24 := by
  simp [wordPulses]

theorem wordPulses_getElem? (cfg : Config) (w : BitVec 24) {j : Nat} (hj : j < 24) :
    (wordPulses cfg w)[j]? = some (duty cfg (w.getLsbD (23 - j))) := by
  simp [wordPulses, hj]

theorem pulseSequence_length (cfg : Config) (b : Byte) (cols : List Color) :
    (pulseSequence cfg b cols).length = 24 * cols.length + cfg.latchLen := by
  simp only [pulseSequence, List.length_append, List.length_flatMap, wordPulses_length, List.length_replicate,
    List.map_const', List.sum_replicate, smul_eq_mul]
  omega

theorem flatMap_wordPulses_getElem? (cfg : Config) (b : Byte) (cols : List Color) (i : Nat) (c : Color)
    (h : cols[i]? = some c) (j : Nat) (hj : j < 24) :
    (cols.flatMap fun c => wordPulses cfg (grb c b))[24 * i + j]? = some (duty cfg ((grb c b).getLsbD (23 - j))) := by
  induction cols generalizing i with
  | nil => simp at h
  | cons c0 rest ih =>
    rw [List.flatMap_cons]
    cases i with
    | zero =>
      have hc : c0 = c := by simpa using h
      subst hc
      rw [List.getElem?_append_left (by simpa using hj)]
      simpa using wordPulses_getElem? cfg (grb c0 b) hj
    | succ i =>
      rw [List.getElem?_append_right (by simp; omega), wordPulses_length,
        show 24 * (i + 1) + j - 24 = 24 * i + j by omega]
      exact ih i (by simpa using h)

/-- The render's buffer is the frame of the rules (R6, R102-R104). -/
theorem pulseSequence_carriesFrame (cfg : Config) (b : Byte) (leds : List Led) :
    CarriesFrame cfg b leds (pulseSequence cfg b (leds.map Led.color)) := by
  have hlen : ((leds.map Led.color).flatMap fun c => wordPulses cfg (grb c b)).length = 24 * leds.length := by
    have h := pulseSequence_length cfg b (leds.map Led.color)
    simp only [pulseSequence, List.length_append, List.length_replicate, List.length_map] at h
    omega
  refine ⟨by simpa using pulseSequence_length cfg b (leds.map Led.color), ?_, ?_⟩
  · intro i led hi j hj
    have hlt : i < leds.length := (List.getElem?_eq_some_iff.1 hi).1
    rw [pulseSequence, List.getElem?_append_left (by omega),
      flatMap_wordPulses_getElem? cfg b _ i led.color (by simp [hi]) j hj, ← grb_toNat]
    rfl
  · intro k hk
    rw [pulseSequence, List.getElem?_append_right (by omega), hlen, Nat.add_sub_cancel_left]
    simp [hk]

theorem pulseSequence_entries_lt {cfg : Config} (h : cfg.Legal) (b : Byte) (cols : List Color) :
    ∀ e ∈ pulseSequence cfg b cols, e < 2 ^ cfg.dutyWidth := by
  obtain ⟨-, -, h0, h1, h2, h3, h4⟩ := h
  intro e he
  simp only [pulseSequence, List.mem_append, List.mem_flatMap, wordPulses, List.mem_map, List.mem_replicate, duty] at he
  rcases he with ⟨c, -, j, -, rfl⟩ | ⟨-, rfl⟩
  · split <;> omega
  · omega

/-! ### The advance (R141-R143) -/

theorem sat8_sub (a d : Byte) : (sat8 ((a.toNat : Int) - (d.toNat : Int))).toNat = a.toNat - d.toNat := by
  have := a.isLt
  simp only [sat8, BitVec.toNat_ofNat]
  omega

theorem sat8_add (a d : Byte) : (sat8 ((a.toNat : Int) + (d.toNat : Int))).toNat = min (a.toNat + d.toNat) 255 := by
  simp only [sat8, BitVec.toNat_ofNat]
  omega

theorem level_cases (l : Level) : l = 0 ∨ l = 1 ∨ l = 2 ∨ l = 3 := by
  revert l; decide

theorem phaseOf_eq_none_iff (l : Level) : phaseOf l = none ↔ l = 3 := by
  revert l; decide

/-- An LED advances exactly when its level is legal (R142). -/
theorem advance_eq_none_iff (step : Byte) (led : Led) : led.advance step = none ↔ led.level = 3 := by
  rw [← phaseOf_eq_none_iff]
  unfold Led.advance
  cases phaseOf led.level <;> simp

/-- An advance is the advance of the rules (R141). -/
theorem advance_advancesTo {step : Byte} {led led' : Led} (h : led.advance step = some led') :
    AdvancesTo step led led' := by
  obtain ⟨c, l⟩ := led
  unfold Led.advance at h
  rcases level_cases l with rfl | rfl | rfl | rfl <;>
    simp only [phaseOf, BitVec.ofNat_eq_ofNat, BitVec.toNat_ofNat, Nat.reducePow, Nat.reduceMod, channelOf, setChannel,
      Option.some.injEq, reduceCtorEq] at h
  all_goals
    subst h
    simp [AdvancesTo, sat8_sub, sat8_add]
    rfl

/-- An advance leaves a legal level (R25). -/
theorem advance_level_ne {step : Byte} {led led' : Led} (h : led.advance step = some led') : led'.level ≠ 3 := by
  obtain ⟨h0, h1, h2, h3⟩ := advance_advancesTo h
  rcases level_cases led.level with hl | hl | hl | hl
  · rw [(h0 hl).2.2.2]; split <;> decide
  · rw [(h1 hl).2.2.2]; split <;> decide
  · rw [(h2 hl).2.2.2]; split <;> decide
  · exact absurd hl h3

theorem advanceAll_length (step : Byte) (leds : List Led) : (advanceAll step leds).1.length = leds.length := by
  induction leds with
  | nil => rfl
  | cons led rest ih => unfold advanceAll; split <;> simp [ih]

/-- With legal levels only, every LED advances and no fault is raised (R143). -/
theorem advanceAll_of_legal {step : Byte} {leds : List Led} (h : ∀ led ∈ leds, led.level ≠ 3) :
    (advanceAll step leds).2 = false ∧ AllAdvanced step leds (advanceAll step leds).1 := by
  induction leds with
  | nil => exact ⟨rfl, rfl, by simp⟩
  | cons led rest ih =>
    obtain ⟨ihf, ihl, iha⟩ := ih fun l hl => h l (List.mem_cons_of_mem _ hl)
    cases hadv : led.advance step with
    | none => exact absurd ((advance_eq_none_iff step led).1 hadv) (h led List.mem_cons_self)
    | some led' =>
      simp only [advanceAll, hadv]
      refine ⟨ihf, by simp [ihl], fun i l hi => ?_⟩
      cases i with
      | zero =>
        have : led = l := by simpa using hi
        exact ⟨led', by simp, this ▸ advance_advancesTo hadv⟩
      | succ i => simpa using iha i l (by simpa using hi)

/-- At the first illegal level the advance stops: what stands before is advanced, the rest is not (R142, R143). -/
theorem advanceAll_of_illegal {step : Byte} {pre post : List Led} {bad : Led} (h : ∀ led ∈ pre, led.level ≠ 3)
    (hbad : bad.level = 3) :
    ∃ pre', advanceAll step (pre ++ bad :: post) = (pre' ++ bad :: post, true) ∧ AllAdvanced step pre pre' := by
  induction pre with
  | nil =>
    refine ⟨[], ?_, rfl, by simp⟩
    simp [advanceAll, (advance_eq_none_iff step bad).2 hbad]
  | cons led rest ih =>
    obtain ⟨rest', he, hl, ha⟩ := ih fun l hl => h l (List.mem_cons_of_mem _ hl)
    cases hadv : led.advance step with
    | none => exact absurd ((advance_eq_none_iff step led).1 hadv) (h led List.mem_cons_self)
    | some led' =>
      refine ⟨led' :: rest', by simp [advanceAll, hadv, he], by simp [hl], fun i l hi => ?_⟩
      cases i with
      | zero =>
        have : led = l := by simpa using hi
        exact ⟨led', by simp, this ▸ advance_advancesTo hadv⟩
      | succ i => simpa using ha i l (by simpa using hi)

/-- Every level an advance of the whole store leaves is legal where the levels before were (R25). -/
theorem advanceAll_levels {step : Byte} {leds : List Led} (h : ∀ led ∈ leds, led.level ≠ 3) :
    ∀ led ∈ (advanceAll step leds).1, led.level ≠ 3 := by
  induction leds with
  | nil => simp [advanceAll]
  | cons led rest ih =>
    have ih := ih fun l hl => h l (List.mem_cons_of_mem _ hl)
    cases hadv : led.advance step with
    | none => exact absurd ((advance_eq_none_iff step led).1 hadv) (h led List.mem_cons_self)
    | some led' =>
      simp only [advanceAll, hadv]
      intro l hl
      rcases List.mem_cons.1 hl with rfl | hl
      · exact advance_level_ne hadv
      · exact ih l hl

/-- With legal levels only, LED i after the advance of the whole store is the advance of LED i (R143). -/
theorem advanceAll_getElem? {step : Byte} {leds : List Led} (h : ∀ led ∈ leds, led.level ≠ 3) {i : Nat} {led : Led}
    (hi : leds[i]? = some led) : (advanceAll step leds).1[i]? = led.advance step := by
  induction leds generalizing i with
  | nil => simp at hi
  | cons l rest ih =>
    cases hadv : l.advance step with
    | none => exact absurd ((advance_eq_none_iff step l).1 hadv) (h l List.mem_cons_self)
    | some l' =>
      simp only [advanceAll, hadv]
      cases i with
      | zero =>
        have hl : l = led := by simpa using hi
        simp [← hl, hadv]
      | succ i => simpa using ih (fun l hl => h l (List.mem_cons_of_mem _ hl)) (by simpa using hi)

/-- Everything a fade iteration can do (R144). -/
theorem fadeIteration_cases (s : State) :
    ((advanceAll s.cfg.fadeStep s.leds).2 = true ∧
      s.fadeIteration = State.raiseFault { s with leds := (advanceAll s.cfg.fadeStep s.leds).1 } .internalState) ∨
    ((advanceAll s.cfg.fadeStep s.leds).2 = false ∧
      s.fadeIteration = State.sendFrame { s with leds := (advanceAll s.cfg.fadeStep s.leds).1 }) := by
  unfold State.fadeIteration
  cases (advanceAll s.cfg.fadeStep s.leds).2 <;> simp

/-! ### The step -/

/-- Every command answers a next state in every state. -/
theorem exec_answers_next (i : Instr) (s : State) : ∃ t, exec i s = .next t := by
  cases i <;> exact ⟨_, rfl⟩

/-- Everything the core's own step can do (R29, R85, R108). -/
theorem coreStep_cases (s : State) :
    (s.ctl = .idle ∧ s.port = [] ∧ coreStep s = .next s) ∨
    (∃ w rest i, s.ctl = .idle ∧ s.port = w :: rest ∧ decode w = .command i ∧
      coreStep s = exec i { s with port := rest }) ∨
    (∃ w rest why, s.ctl = .idle ∧ s.port = w :: rest ∧ decode w = .illegal why ∧
      coreStep s = .next (State.respond { s with port := rest } .illegalCommand 0)) ∨
    ((s.ctl = .exec ∨ s.ctl = .wait) ∧ coreStep s = exec (runningCommand s.mode) s) ∨
    ((s.ctl = .delay ∨ s.ctl = .halted) ∧ coreStep s = .next s) := by
  unfold coreStep
  cases hc : s.ctl with
  | idle =>
    cases hp : s.port with
    | nil => simp
    | cons w rest =>
      cases hd : decode w with
      | command i => exact .inr (.inl ⟨w, rest, i, rfl, rfl, hd, by simp [accept, hd]⟩)
      | illegal why => exact .inr (.inr (.inl ⟨w, rest, why, rfl, rfl, hd, by simp [accept, hd]⟩))
  | exec => simp
  | wait => simp
  | delay => simp
  | halted => simp

theorem nextMove_core_of_nil {s : State} (h : s.schedule = []) : s.nextMove = .core := by
  simp [State.nextMove, h]

end Sys2Proof.Machine
end

