-- ==== Sys2Proof/Laws/PerInstr.lean ====
section
/-! SUPPORT. Statements made once per command: the encoding of each command lies in its row of the opcode map. -/

namespace Sys2Proof.Laws

open Sys2Proof

namespace EncodesToItsRow

/-- The row of R77 that a command's words belong to. -/
def rowIndex : Instr → Nat
  | .nop => 0
  | .setColor _ _ _ _ => 1
  | .setBrightness _ => 2
  | .send => 3
  | .fadeStep => 4
  | .fadeRun => 5
  | .getColor _ => 6
  | .getBrightness => 7

/-- The command's encoding is accepted by its own row: its opcode is the row's and its reserved bits are zero (R77, R79). -/
def Statement (i : Instr) : Prop := ∃ row, opcodeMap[rowIndex i]? = some row ∧ row.accepts (encode i) = true

theorem nop : Statement .nop := ⟨_, rfl, rfl⟩

theorem setColor (idx : LedIndex) (r g b : Byte) : Statement (.setColor idx r g b) := by
  refine ⟨_, rfl, (accepts_iff _ _).2 fun k hk => ?_⟩
  rw [encode, getLsbD_formatC]
  interval_cases k <;> simp

theorem setBrightness (lvl : Byte) : Statement (.setBrightness lvl) := by
  refine ⟨_, rfl, (accepts_iff _ _).2 fun k hk => ?_⟩
  rw [encode, getLsbD_formatB]
  interval_cases k <;> simp

theorem send : Statement .send := ⟨_, rfl, rfl⟩

theorem fadeStep : Statement .fadeStep := ⟨_, rfl, rfl⟩

theorem fadeRun : Statement .fadeRun := ⟨_, rfl, rfl⟩

theorem getColor (idx : LedIndex) : Statement (.getColor idx) := by
  refine ⟨_, rfl, (accepts_iff _ _).2 fun k hk => ?_⟩
  rw [encode, getLsbD_formatI]
  interval_cases k <;> simp

theorem getBrightness : Statement .getBrightness := ⟨_, rfl, rfl⟩

end EncodesToItsRow

end Sys2Proof.Laws
end

