-- ==== Sys2Proof/Laws/Step.lean ====
section
/-! SUPPORT. What an event, a running command, an accepted command and a whole step can do, said once: a claim about every step
goes through `step_cases` and these, and unfolds nothing. -/

namespace Sys2Proof.Machine

open Sys2Proof

/-! ### Events (R179-R183) -/

/-- Everything a completion can do (R179). -/
theorem completionEvent_cases (s : State) :
    (s.ctl = .halted ∧ s.completionEvent = { s with outstanding := false }) ∨
    (s.ctl = .wait ∧ s.done = false ∧ s.completionEvent = { s with outstanding := false, done := true }) ∨
    (s.ctl ≠ .halted ∧ ¬(s.ctl = .wait ∧ s.done = false) ∧ s.pendingLate = true ∧
      s.completionEvent = { s with outstanding := false, pendingLateBit := false }) ∨
    (s.ctl ≠ .halted ∧ ¬(s.ctl = .wait ∧ s.done = false) ∧ s.pendingLate = false ∧
      s.completionEvent = { s with outstanding := false, faultCode := 2, ctl := .halted }) := by
  simp only [State.completionEvent]
  by_cases hh : s.ctl = .halted
  · left; exact ⟨hh, by rw [if_pos hh]⟩
  · rw [if_neg hh]
    by_cases hw : s.ctl = .wait ∧ s.done = false
    · right; left; exact ⟨hw.1, hw.2, by rw [if_pos hw]; rfl⟩
    · rw [if_neg hw]
      cases hp : s.pendingLate
      · right; right; right; exact ⟨hh, hw, rfl, by rw [if_neg (by simp)]; rfl⟩
      · right; right; left; exact ⟨hh, hw, rfl, by rw [if_pos rfl]; rfl⟩

/-- Everything a delay end can do (R180). -/
theorem delayEndEvent_cases (s : State) :
    (s.ctl = .delay ∧ s.mode = .fadeStep ∧ s.delayEndEvent = (s.respond .ok 0).goto .idle) ∨
    (s.ctl = .delay ∧ s.mode = .fadeRun ∧ s.delayEndEvent = State.goto { s with iter := s.iter + 1 } .exec) ∨
    ((s.ctl = .delay → s.mode = .send) ∧ s.delayEndEvent = s) := by
  unfold State.delayEndEvent State.delayEnabled
  cases hc : s.ctl <;> cases hm : s.mode <;> simp

/-- Everything a timeout can do (R181). -/
theorem timeoutEvent_cases (s : State) :
    (s.cfg.hasTimeout = true ∧ s.ctl = .wait ∧ s.done = false ∧ s.timeoutEvent =
      ((s.writePendingLate true).respond .transportTimeout (if s.mode = .fadeRun then s.iterData else 0)).goto .idle) ∨
    (¬(s.cfg.hasTimeout = true ∧ s.ctl = .wait ∧ s.done = false) ∧ s.timeoutEvent = s) := by
  unfold State.timeoutEvent State.timeoutEnabled
  by_cases h : s.cfg.hasTimeout = true ∧ s.ctl = .wait ∧ s.done = false
  · left
    obtain ⟨h1, h2, h3⟩ := h
    refine ⟨h1, h2, h3, ?_⟩
    rw [if_pos (by simp [h1, h2, h3])]
    cases hm : s.mode <;> simp
  · right
    refine ⟨h, ?_⟩
    rw [if_neg]
    simpa [and_assoc] using h

/-- After a completion the timeout is not enabled, so the two in one instant are the completion (R183). -/
theorem simultaneousEvent_eq (s : State) : s.simultaneousEvent = s.completionEvent := by
  unfold State.simultaneousEvent
  rcases timeoutEvent_cases s.completionEvent with ⟨-, hw, hd, -⟩ | ⟨-, h⟩
  · exfalso
    rcases completionEvent_cases s with ⟨h1, h⟩ | ⟨h1, h2, h⟩ | ⟨h1, h2, -, h⟩ | ⟨h1, h2, -, h⟩ <;> rw [h] at hw hd
    · exact absurd (h1.symm.trans hw) (by decide)
    · cases hd
    · exact h2 ⟨hw, hd⟩
    · cases hw
  · exact h

/-! ### The running command (R108, R115, R145, R146) -/

/-- Everything the core's step can do in EXEC and WAIT. -/
theorem running_cases {s : State} (h : s.ctl = .exec ∨ s.ctl = .wait) :
    (s.ctl = .exec ∧ s.mode = .send ∧ coreStep s = .next s.sendFrame) ∨
    (s.ctl = .exec ∧ s.mode = .fadeRun ∧ s.cancel = true ∧
      coreStep s = .next ((s.respond .ok s.iterData).goto .idle)) ∨
    (s.ctl = .exec ∧ (s.mode = .fadeStep ∨ s.mode = .fadeRun ∧ s.cancel = false) ∧
      coreStep s = .next s.fadeIteration) ∨
    (s.ctl = .wait ∧ coreStep s = .next s.consume) := by
  rcases h with h | h <;> cases hm : s.mode <;>
    simp [coreStep, h, hm, runningCommand, exec, execSend, execFadeStep, execFadeRun, State.multiStep]
  unfold State.runTop
  cases s.cancel <;> simp

/-- Everything the acceptance of a command can do (R85, R110-R115, R145, R146). -/
theorem accepted_cases (i : Instr) {s : State} (h : s.ctl = .idle) :
    (∃ st d, st ≠ .transportTimeout ∧ (st = .busy → s.pendingLate = true) ∧ exec i s = .next (s.respond st d)) ∨
    (∃ idx r g b, i = .setColor idx r g b ∧ idx.toNat < s.numLeds ∧
      exec i s = .next ((s.writeColor idx.toNat ⟨r, g, b⟩).respond .ok 0)) ∨
    (∃ lvl, i = .setBrightness lvl ∧ exec i s = .next ((s.writeBrightness lvl).respond .ok 0)) ∨
    (∃ m, s.pendingLate = false ∧
      exec i s = .next { s with mode := m, ctl := .exec, iter := if m = .fadeRun then 0 else s.iter }) := by
  have multi : ∀ m body, (s.pendingLate = true ∧ s.multiStep m body = s.respond .busy 0) ∨ (s.pendingLate = false ∧
      s.multiStep m body = { s with mode := m, ctl := .exec, iter := if m = .fadeRun then 0 else s.iter }) := by
    intro m body
    have hm : s.multiStep m body = s.start m := by simp [State.multiStep, h]
    cases hp : s.pendingLate
    · exact .inr ⟨rfl, hm.trans (start_of_ready hp m)⟩
    · exact .inl ⟨rfl, hm.trans (start_of_busy hp m)⟩
  cases i with
  | nop => exact .inl ⟨.ok, 0, nofun, nofun, by simp only [exec, execNop, singleStep_of_idle h]⟩
  | setColor idx r g b =>
    simp only [exec, execSetColor, singleStep_of_idle h, State.validIndex]
    by_cases hi : idx.toNat < s.numLeds
    · exact .inr (.inl ⟨idx, r, g, b, rfl, hi, by simp [hi]⟩)
    · exact .inl ⟨.outOfRange, 0, nofun, nofun, by simp [hi]⟩
  | setBrightness lvl =>
    exact .inr (.inr (.inl ⟨lvl, rfl, by simp only [exec, execSetBrightness, singleStep_of_idle h]⟩))
  | getColor idx =>
    simp only [exec, execGetColor, singleStep_of_idle h]
    split
    · exact .inl ⟨.ok, _, nofun, nofun, rfl⟩
    · exact .inl ⟨.outOfRange, _, nofun, nofun, rfl⟩
  | getBrightness => exact .inl ⟨.ok, s.brightnessData, nofun, nofun, by simp only [exec, execGetBrightness, singleStep_of_idle h]⟩
  | send =>
    simp only [exec, execSend]
    rcases multi .send State.sendFrame with ⟨hp, hb⟩ | ⟨hp, hr⟩
    · exact .inl ⟨.busy, _, nofun, fun _ => hp, congrArg _ hb⟩
    · exact .inr (.inr (.inr ⟨.send, hp, congrArg _ hr⟩))
  | fadeStep =>
    simp only [exec, execFadeStep]
    rcases multi .fadeStep State.fadeIteration with ⟨hp, hb⟩ | ⟨hp, hr⟩
    · exact .inl ⟨.busy, _, nofun, fun _ => hp, congrArg _ hb⟩
    · exact .inr (.inr (.inr ⟨.fadeStep, hp, congrArg _ hr⟩))
  | fadeRun =>
    simp only [exec, execFadeRun]
    rcases multi .fadeRun State.runTop with ⟨hp, hb⟩ | ⟨hp, hr⟩
    · exact .inl ⟨.busy, _, nofun, fun _ => hp, congrArg _ hb⟩
    · exact .inr (.inr (.inr ⟨.fadeRun, hp, congrArg _ hr⟩))

/-- Every result of the core's own step, with the state it comes from: the two case lemmas above in one. -/
theorem coreStep_results {s t : State} (h : coreStep s = .next t) :
    (((s.ctl = .idle ∧ s.port = []) ∨ s.ctl = .delay ∨ s.ctl = .halted ∨ (s.ctl = .wait ∧ s.done = false)) ∧ t = s) ∨
    (∃ w rest st d, s.ctl = .idle ∧ s.port = w :: rest ∧ st ≠ .transportTimeout ∧ (st = .busy → s.pendingLate = true) ∧
      t = State.respond { s with port := rest } st d) ∨
    (∃ w rest idx r g b, s.ctl = .idle ∧ s.port = w :: rest ∧ decode w = .command (.setColor idx r g b) ∧
      idx.toNat < s.numLeds ∧
      t = (State.writeColor { s with port := rest } idx.toNat ⟨r, g, b⟩).respond .ok 0) ∨
    (∃ w rest lvl, s.ctl = .idle ∧ s.port = w :: rest ∧ decode w = .command (.setBrightness lvl) ∧
      t = (State.writeBrightness { s with port := rest } lvl).respond .ok 0) ∨
    (∃ w rest m, s.ctl = .idle ∧ s.port = w :: rest ∧ s.pendingLate = false ∧
      t = { s with port := rest, mode := m, ctl := .exec, iter := if m = .fadeRun then 0 else s.iter }) ∨
    (s.ctl = .exec ∧ s.mode = .send ∧ t = s.sendFrame) ∨
    (s.ctl = .exec ∧ s.mode = .fadeRun ∧ s.cancel = true ∧ t = (s.respond .ok s.iterData).goto .idle) ∨
    (s.ctl = .exec ∧ (s.mode = .fadeStep ∨ s.mode = .fadeRun ∧ s.cancel = false) ∧
      (advanceAll s.cfg.fadeStep s.leds).2 = true ∧
      t = State.raiseFault { s with leds := (advanceAll s.cfg.fadeStep s.leds).1 } .internalState) ∨
    (s.ctl = .exec ∧ (s.mode = .fadeStep ∨ s.mode = .fadeRun ∧ s.cancel = false) ∧
      (advanceAll s.cfg.fadeStep s.leds).2 = false ∧
      t = State.sendFrame { s with leds := (advanceAll s.cfg.fadeStep s.leds).1 }) ∨
    (s.ctl = .wait ∧ s.done = true ∧ s.mode = .send ∧ t = (s.clearDone.respond .ok 0).goto .idle) ∨
    (s.ctl = .wait ∧ s.done = true ∧ s.mode ≠ .send ∧ t = s.clearDone.goto .delay) := by
  have inj : ∀ {u : State}, coreStep s = .next u → t = u := fun hu => by
    rw [hu] at h; exact (Host.Outcome.next.inj h).symm
  rcases coreStep_cases s with ⟨hc, hp, he⟩ | ⟨w, rest, i, hc, hp, hd, he⟩ | ⟨w, rest, why, hc, hp, hd, he⟩ |
    ⟨hc, -⟩ | ⟨hc, he⟩
  · exact .inl ⟨.inl ⟨hc, hp⟩, inj he⟩
  · rcases accepted_cases i (s := { s with port := rest }) hc with ⟨st, d, h1, h2, hr⟩ | ⟨idx, r, g, b, rfl, hi, hr⟩ |
      ⟨lvl, rfl, hr⟩ | ⟨m, hl, hr⟩
    · exact .inr (.inl ⟨w, rest, st, d, hc, hp, h1, h2, inj (he.trans hr)⟩)
    · exact .inr (.inr (.inl ⟨w, rest, idx, r, g, b, hc, hp, hd, hi, inj (he.trans hr)⟩))
    · exact .inr (.inr (.inr (.inl ⟨w, rest, lvl, hc, hp, hd, inj (he.trans hr)⟩)))
    · exact .inr (.inr (.inr (.inr (.inl ⟨w, rest, m, hc, hp, hl, inj (he.trans hr)⟩))))
  · exact .inr (.inl ⟨w, rest, .illegalCommand, _, hc, hp, nofun, nofun, inj he⟩)
  · rcases running_cases hc with ⟨h1, h2, hr⟩ | ⟨h1, h2, h3, hr⟩ | ⟨h1, h2, hr⟩ | ⟨h1, hr⟩
    · exact .inr (.inr (.inr (.inr (.inr (.inl ⟨h1, h2, inj hr⟩)))))
    · exact .inr (.inr (.inr (.inr (.inr (.inr (.inl ⟨h1, h2, h3, inj hr⟩))))))
    · rcases fadeIteration_cases s with ⟨hf, hi⟩ | ⟨hf, hi⟩
      · exact .inr (.inr (.inr (.inr (.inr (.inr (.inr (.inl ⟨h1, h2, hf, (inj hr).trans hi⟩)))))))
      · exact .inr (.inr (.inr (.inr (.inr (.inr (.inr (.inr (.inl ⟨h1, h2, hf, (inj hr).trans hi⟩))))))))
    · rcases consume_cases s with ⟨hd, hi⟩ | ⟨hd, hm, hi⟩ | ⟨hd, hm, hi⟩
      · exact .inl ⟨.inr (.inr (.inr ⟨h1, hd⟩)), (inj hr).trans hi⟩
      · exact .inr (.inr (.inr (.inr (.inr (.inr (.inr (.inr (.inr (.inl ⟨h1, hd, hm, (inj hr).trans hi⟩)))))))))
      · exact .inr (.inr (.inr (.inr (.inr (.inr (.inr (.inr (.inr (.inr ⟨h1, hd, hm, (inj hr).trans hi⟩)))))))))
  · exact .inl ⟨hc.elim (fun h => .inr (.inl h)) (fun h => .inr (.inr (.inl h))), inj he⟩

/-! ### The step -/

/-- Which agent moved, and what the move is (R7, R178). -/
theorem step_cases {s t : State} (h : step s = .next t) :
    (s.nextMove = .core ∧ coreStep s.popMove = .next t) ∨
    (∃ w, s.nextMove = .offer w ∧ t = { s.popMove with port := s.port ++ [w] }) ∨
    (∃ v, s.nextMove = .driveCancel v ∧ t = { s.popMove with cancel := v }) ∨
    ((s.nextMove = .completion ∨ s.nextMove = .completionWithTimeout) ∧ t = s.popMove.completionEvent) ∨
    (s.nextMove = .delayEnd ∧ t = s.popMove.delayEndEvent) ∨
    (s.nextMove = .timeout ∧ t = s.popMove.timeoutEvent) ∨
    (s.nextMove = .reset ∧ t = s.popMove.platformReset) := by
  unfold step at h
  cases hm : s.nextMove <;> simp only [hm, takeMove, Host.Outcome.next.injEq, simultaneousEvent_eq] at h
  · exact .inl ⟨rfl, h⟩
  · exact .inr (.inl ⟨_, rfl, h.symm⟩)
  · exact .inr (.inr (.inl ⟨_, rfl, h.symm⟩))
  · exact .inr (.inr (.inr (.inl ⟨.inl rfl, h.symm⟩)))
  · exact .inr (.inr (.inr (.inr (.inl ⟨rfl, h.symm⟩))))
  · exact .inr (.inr (.inr (.inr (.inr (.inl ⟨rfl, h.symm⟩)))))
  · exact .inr (.inr (.inr (.inl ⟨.inr rfl, h.symm⟩)))
  · exact .inr (.inr (.inr (.inr (.inr (.inr ⟨rfl, h.symm⟩)))))

/-- A run of `a + b` steps is `a` steps and then `b`. -/
theorem run_add (a b : Nat) {s t : State} (h : Host.Core.run Sys2Proof.core a s = .next t) :
    Host.Core.run Sys2Proof.core (a + b) s = Host.Core.run Sys2Proof.core b t := by
  induction a generalizing s with
  | zero =>
    cases h
    rw [Nat.zero_add]
  | succ a ih =>
    rw [show a + 1 + b = a + b + 1 by omega]
    simp only [Host.Core.run] at h ⊢
    cases hs : Sys2Proof.core.step s with
    | next u =>
      simp only [hs] at h
      exact ih h
    | fault r => simp [hs] at h
    | refused r => simp [hs] at h

end Sys2Proof.Machine
end

