-- ==== Sys2Proof/Tests/Slice0.lean ====
section
/-! SUPPORT. Tests of the model and the witnesses of the obligations' hypotheses. Every expected value stands in the spec: in
95_test_vectors.md (the vector's name is given) or in the example of the rule named. -/

namespace Sys2Proof.Machine.Tests

open Sys2Proof Sys2Proof.Machine

/-! ### Helpers -/

/-- One field of a next state; none of a fault or a refusal. -/
def got {α : Type} (f : State → α) : Host.Outcome State Fault Refusal → Option α
  | .next s => some (f s)
  | .fault _ => none
  | .refused _ => none

/-- The reset state with a controller state, a mode and a schedule. -/
def at_ (c : Ctl) (m : Mode) (moves : List Move) : State := { State.reset with ctl := c, mode := m, schedule := moves }

/-- The reset state with a schedule and command words waiting at the port. -/
def waiting (moves : List Move) (words : List Word) : State := { State.reset with schedule := moves, port := words }

/-- The reset state of a block built with the timeout. -/
def timed (c : Ctl) (m : Mode) (moves : List Move) : State :=
  { at_ c m moves with cfg := { Config.source with hasTimeout := true } }

/-- A block of one LED and one latch entry. -/
def tinyConfig : Config := { Config.source with initColors := [⟨255, 0, 0⟩], latchLen := 1 }

/-- Its reset state with a controller state, a mode and a schedule. -/
def tiny (c : Ctl) (m : Mode) (moves : List Move) : State :=
  { State.resetWith tinyConfig (List.replicate 25 0) .send with ctl := c, mode := m, schedule := moves }

/-- The tiny block with its submission in flight. -/
def tinyInFlight (moves : List Move) : State :=
  { tiny .wait .send moves with outstanding := true, submissions := [⟨List.replicate 25 0, 0⟩] }

/-- The sequence of one submission, as characters of 95_test_vectors.md: one, zero or latch. -/
def drawn (cfg : Config) (seq : List Nat) : List Char :=
  seq.map fun e => if e = cfg.dutyOne then '1' else if e = cfg.dutyZero then '0' else 'L'

/-! ### Well-formedness: each check refuses an ill-formed line (R83) -/

theorem test_wf_ok : (Asm.setColor 65535 255 255 255).wellFormed = true := by decide
theorem test_wf_setColor_idx : (Asm.setColor 65536 0 0 0).wellFormed = false := by decide
theorem test_wf_setColor_r : (Asm.setColor 0 256 0 0).wellFormed = false := by decide
theorem test_wf_setColor_g : (Asm.setColor 0 0 256 0).wellFormed = false := by decide
theorem test_wf_setColor_b : (Asm.setColor 0 0 0 256).wellFormed = false := by decide
theorem test_wf_setBrightness : (Asm.setBrightness 256).wellFormed = false := by decide
theorem test_wf_getColor : (Asm.getColor 65536).wellFormed = false := by decide
theorem test_wf_word : (Asm.word (2 ^ 64)).wellFormed = false := by decide
theorem test_wf_setAll_r : (Asm.setAll 256 0 0).wellFormed = false := by decide
theorem test_wf_setAll_g : (Asm.setAll 0 256 0).wellFormed = false := by decide
theorem test_wf_setAll_b : (Asm.setAll 0 0 256).wellFormed = false := by decide
theorem test_wf_showAt : (Asm.showAt 256).wellFormed = false := by decide

/-! ### Decoding: one word of every command, bit by bit from its format (R71-R74, R77) -/

theorem test_decode_nop : decode (0b00000000#8 ++ 0#56) = .command .nop := by decide
theorem test_decode_setColor :
    decode (0b00000001#8 ++ 0b0000000000000011#16 ++ 0b0000000000000000#16 ++ 0b00000001#8 ++ 0b00000010#8 ++ 0b00000011#8) =
      .command (.setColor 3 1 2 3) := by decide
theorem test_decode_setBrightness : decode (0b00000010#8 ++ 0#48 ++ 0b00011110#8) = .command (.setBrightness 30) := by decide
theorem test_decode_send : decode (0b00000011#8 ++ 0#56) = .command .send := by decide
theorem test_decode_fadeStep : decode (0b00000100#8 ++ 0#56) = .command .fadeStep := by decide
theorem test_decode_fadeRun : decode (0b00000101#8 ++ 0#56) = .command .fadeRun := by decide
theorem test_decode_getColor :
    decode (0b00000110#8 ++ 0b0000000100000010#16 ++ 0#40) = .command (.getColor 0x0102) := by decide
theorem test_decode_getBrightness : decode (0b00000111#8 ++ 0#56) = .command .getBrightness := by decide

/-- V-SC1, V-SC4's command, V-SB2: operands at their ends (R72, R74). The word V-SC4 prints is not R72's word of its command
(notes/assumptions/25.md). -/
theorem test_decode_operands :
    decode 0x0100030000010203 = .command (.setColor 3 1 2 3) ∧ decode 0x01FFFF0000000000 = .command (.setColor 65535 0 0 0) ∧
    decode 0x02000000000000FF = .command (.setBrightness 255) := by decide

/-- R79 on the word V-SC4 prints: IDX = 0x00FF with a nonzero RES field. -/
theorem test_decode_printed_word : decode 0x0100FFFF00000000 = .illegal .reservedField := by decide

/-- V-EX1 to V-EX6: illegal words. -/
theorem test_decode_illegal :
    decode 0x0300000000000001 = .illegal .reservedField ∧ decode 0x0800000000000000 = .illegal .reservedOpcode ∧
    decode 0xFF00000000000000 = .illegal .reservedOpcode ∧ decode 0x0100040001000203 = .illegal .reservedField ∧
    decode 0x02000000000001FF = .illegal .reservedField ∧ decode 0x0600000000000001 = .illegal .reservedField := by decide

/-- The words of the pages of R110-R115, R145 and R146 encode their commands. -/
theorem test_encode :
    encode (.setColor 0 255 0 0) = 0x0100000000FF0000 ∧ encode (.setBrightness 30) = 0x020000000000001E ∧
    encode .send = 0x0300000000000000 ∧ encode .fadeStep = 0x0400000000000000 ∧ encode .fadeRun = 0x0500000000000000 ∧
    encode (.getColor 3) = 0x0600030000000000 ∧ encode .getBrightness = 0x0700000000000000 := by decide

theorem test_decodeTableWord : decodeTableWord 64 0x0600030000000000 = some (.getColor 3) := by decide
theorem test_decodeTableWord_illegal : decodeTableWord 64 0x0800000000000000 = none := by decide

/-- The placed word is the one the next step accepts: here V-SC2, index N. -/
theorem test_withFetchWord :
    got State.responses (step (State.reset.withFetchWord 64 0x0100040000010203)) = some [0x0100000000000000] := by decide

/-! ### The datapath (95_test_vectors.md 2.1, 2.2) -/

theorem test_scale :
    scale 255 30 = 30 ∧ scale 128 128 = 64 ∧ scale 1 254 = 0 ∧ scale 255 254 = 254 ∧ scale 200 100 = 78 ∧ scale 2 127 = 0 ∧
    scale 2 128 = 1 ∧ scale 64 191 = 47 ∧ scale 63 192 = 47 ∧ scale 191 30 = 22 ∧ scale 128 30 = 15 := by decide

/-- V-PK1 and LED 0 to 3 of E1. -/
theorem test_grb :
    grb ⟨0x12, 0x34, 0x56⟩ 255 = 0x341256 ∧ grb ⟨255, 0, 0⟩ 30 = 0x001E00 ∧ grb ⟨191, 64, 0⟩ 30 = 0x071600 ∧
    grb ⟨127, 128, 0⟩ 30 = 0x0F0E00 := by decide

/-- V-PK1: green, red, blue, most significant bit first; then the latch run. -/
theorem test_pulseSequence :
    drawn tinyConfig (pulseSequence tinyConfig 255 [⟨0x12, 0x34, 0x56⟩]) = "001101000001001001010110L".toList := by decide

/-! ### The advance (95_test_vectors.md 2.5) -/

/-- V-FA1, V-FA5's last step, V-FA10's last step, V-FA12, V-FA13, V-FA14. -/
theorem test_advance_phase0 :
    Led.advance 5 ⟨⟨255, 0, 0⟩, 0⟩ = some ⟨⟨250, 5, 0⟩, 0⟩ ∧ Led.advance 5 ⟨⟨1, 254, 0⟩, 0⟩ = some ⟨⟨0, 255, 0⟩, 1⟩ ∧
    Led.advance 5 ⟨⟨2, 210, 0⟩, 0⟩ = some ⟨⟨0, 215, 0⟩, 0⟩ ∧ Led.advance 5 ⟨⟨0, 255, 7⟩, 0⟩ = some ⟨⟨0, 255, 7⟩, 1⟩ ∧
    Led.advance 0 ⟨⟨0, 255, 7⟩, 0⟩ = some ⟨⟨0, 255, 7⟩, 1⟩ ∧ Led.advance 0 ⟨⟨255, 0, 0⟩, 0⟩ = some ⟨⟨255, 0, 0⟩, 0⟩ := by
  decide

/-- V-FA15, V-FA16, V-FA17, V-FA33. -/
theorem test_advance_phases :
    Led.advance 5 ⟨⟨0, 255, 0⟩, 1⟩ = some ⟨⟨0, 250, 5⟩, 1⟩ ∧ Led.advance 5 ⟨⟨0, 0, 255⟩, 2⟩ = some ⟨⟨5, 0, 250⟩, 2⟩ ∧
    Led.advance 5 ⟨⟨9, 3, 250⟩, 1⟩ = some ⟨⟨9, 0, 255⟩, 2⟩ ∧ Led.advance 5 ⟨⟨1, 2, 3⟩, 3⟩ = none := by decide

/-! ### The commands, one step each -/

/-- V-NOP. -/
theorem test_nop : got State.responses (exec .nop State.reset) = some [0] := by decide
/-- V-SC1. -/
theorem test_setColor :
    got (fun t => (t.leds[3]?, t.responses)) (exec (.setColor 3 1 2 3) State.reset) = some (some ⟨⟨1, 2, 3⟩, 0⟩, [0]) := by
  decide
/-- V-SC2: index N. -/
theorem test_setColor_outOfRange :
    got (fun t => (t.leds == State.reset.leds, t.responses)) (exec (.setColor 4 1 2 3) State.reset) =
      some (true, [0x0100000000000000]) := by decide
/-- V-SB2. -/
theorem test_setBrightness : got State.bri (exec (.setBrightness 255) State.reset) = some 255 := by decide
/-- E4. -/
theorem test_getColor : got State.responses (exec (.getColor 1) State.reset) = some [0x0000000000BF4000] := by decide
/-- V-GC2: the level stands in bits 25:24. -/
theorem test_getColor_level :
    got State.responses (exec (.getColor 0) { State.reset with leds := [⟨⟨0, 255, 0⟩, 1⟩] }) = some [0x000000000100FF00] := by
  decide
/-- V-GB1. -/
theorem test_getBrightness :
    got State.responses (exec .getBrightness { State.reset with bri := 30 }) = some [0x000000000000001E] := by decide
/-- R85: acceptance of SEND. -/
theorem test_send_accept :
    got (fun t => (t.ctl, t.mode, t.responses)) (exec .send State.reset) = some (.exec, .send, []) := by decide
/-- E1: the first 24 entries of LED 0's frame at brightness 30. -/
theorem test_send_frame :
    got (fun t => (t.ctl, t.outstanding, t.submissions.map fun x => drawn tinyConfig x.seq))
      (exec .send { tiny .exec .send [] with bri := 30 }) =
      some (.wait, true, ["000000000001111000000000L".toList]) := by decide
/-- V-FS1. -/
theorem test_fadeStep :
    got (fun t => (t.ctl, t.leds)) (exec .fadeStep (at_ .exec .fadeStep [])) =
      some (.wait, [⟨⟨250, 5, 0⟩, 0⟩, ⟨⟨186, 69, 0⟩, 0⟩, ⟨⟨122, 133, 0⟩, 0⟩, ⟨⟨58, 197, 0⟩, 0⟩]) := by decide
/-- V-FS2: LED 2 holds level 3. -/
theorem test_fadeStep_fault :
    got (fun t => (t.ctl, t.faultCode, t.submissions, t.leds))
      (exec .fadeStep { at_ .exec .fadeStep [] with
        leds := [⟨⟨255, 0, 0⟩, 0⟩, ⟨⟨191, 64, 0⟩, 0⟩, ⟨⟨127, 128, 0⟩, 3⟩, ⟨⟨63, 192, 0⟩, 0⟩] }) =
      some (.halted, 1, [], [⟨⟨250, 5, 0⟩, 0⟩, ⟨⟨186, 69, 0⟩, 0⟩, ⟨⟨127, 128, 0⟩, 3⟩, ⟨⟨63, 192, 0⟩, 0⟩]) := by decide
/-- V-FR1: CANCEL at the first top. -/
theorem test_fadeRun_cancelled :
    got (fun t => (t.ctl, t.responses, t.submissions)) (exec .fadeRun { at_ .exec .fadeRun [] with cancel := true }) =
      some (.idle, [0], []) := by decide
/-- R146: the first top with CANCEL = 0 advances (V-FR2's first iteration). -/
theorem test_fadeRun_iterates :
    got (fun t => (t.ctl, t.leds[3]?)) (exec .fadeRun (at_ .exec .fadeRun [])) = some (.wait, some ⟨⟨58, 197, 0⟩, 0⟩) := by
  decide

/-! ### Events and faults, one step each (95_test_vectors.md 2.7) -/

/-- V-EX1: an illegal word at the port. -/
theorem test_illegal_word :
    got (fun t => (t.ctl, t.port, t.responses)) (step (waiting [] [0x0300000000000001])) =
      some (.idle, [], [0x0200000000000000]) := by decide
/-- V-EX7. -/
theorem test_timeout :
    got (fun t => (t.ctl, t.pendingLateBit, t.responses)) (step (timed .wait .send [.timeout])) =
      some (.idle, true, [0x0400000000000000]) := by decide
/-- P6: FADE_RUN's timeout answers ITER. -/
theorem test_timeout_fadeRun :
    got State.responses (step { timed .wait .fadeRun [.timeout] with iter := 1 }) = some [0x0400000000000001] := by decide
/-- V-EX8. -/
theorem test_busy :
    got (fun t => (t.ctl, t.responses)) (exec .fadeStep { timed .idle .send [] with pendingLateBit := true }) =
      some (.idle, [0x0300000000000000]) := by decide
/-- V-EX9. -/
theorem test_late_completion :
    got (fun t => (t.ctl, t.pendingLateBit, t.done)) (step { timed .idle .send [.completion] with pendingLateBit := true }) =
      some (.idle, false, false) := by decide
/-- V-EX10. -/
theorem test_completion_with_timeout :
    got (fun t => (t.ctl, t.pendingLateBit, t.done)) (step (timed .wait .send [.completionWithTimeout])) =
      some (.wait, false, true) := by decide
/-- V-EX11. -/
theorem test_spurious_completion :
    got (fun t => (t.ctl, t.faultCode)) (step (waiting [.completion] [])) = some (.halted, 2) := by decide
/-- V-EX12. -/
theorem test_halted_holds_the_port :
    got (fun t => (t.ctl, t.port)) (step { waiting [] [0] with ctl := .halted }) = some (.halted, [0]) := by decide
/-- V-EX13. -/
theorem test_reset :
    got (fun t => (t.ctl, t.faultCode, t.leds == State.reset.leds)) (step { at_ .halted .send [.reset] with faultCode := 2, leds := [] }) =
      some (.idle, 0, true) := by decide
/-- R180: ITER wraps modulo 2^32. -/
theorem test_delayEnd_wraps :
    got (fun t => (t.ctl, t.iter)) (step { at_ .delay .fadeRun [.delayEnd] with iter := 0xFFFFFFFF }) = some (.exec, 0) := by
  decide

/-! ### The assembler (R83, R84) -/

/-- P1's first line and P4's raw word. -/
theorem test_readLine :
    readLine "SET_COLOR      0, 255, 0, 0     ; 0x0100_0000_00FF_0000".toList = .line (.setColor 0 255 0 0) ∧
    readLine ".word 0x0300000000000001        ; SEND with RES bit 0 set".toList = .line (.word 0x0300000000000001) := by decide
theorem test_readLine_host : readLine "; host: CANCEL <- 1".toList = .line (.hostCancel true) := by decide
theorem test_readLine_comment : readLine ";   the timer's timeout fires".toList = .empty := by decide
theorem test_readLine_error : readLine "SET_BRIGHTNESS".toList = .error := by decide
/-- R84. -/
theorem test_assemble_setAll :
    assemble 2 [.setAll 1 2 3] = some [.offer 0x0100000000010203, .offer 0x0100010000010203] := by decide
theorem test_assemble_showAt : assemble 4 [.showAt 30] = some [.offer 0x020000000000001E, .offer 0x0300000000000000] := by decide
theorem test_assemble_fadeSteps :
    assemble 4 [.fadeSteps 2] = some [.offer 0x0400000000000000, .offer 0x0400000000000000] ∧ assemble 4 [.fadeSteps 0] = some [] := by
  decide
theorem test_assemble_clear :
    assemble 1 [.clear] = some [.offer 0x0100000000000000, .offer 0x0300000000000000] := by decide
theorem test_assemble_error : assemble 4 [.nop, .setBrightness 256] = none := by decide

/-! ### Witnesses: for every obligation with hypotheses, states and operands that meet them, clause by clause -/

theorem witness_EncodeOfDecodeGivesTheWord :
    decode 0x01FFFF0000FFFFFF = .command (.setColor 65535 255 255 255) ∧ decode 0x0000000000000000 = .command .nop := by decide

theorem witness_DecodingFollowsTheDisjointRowsOfTheMap :
    (∃ row ∈ opcodeMap, ∃ w : Word, w &&& row.mask = row.pattern ∧ w = 0x01FFFF0000FFFFFF) ∧
    (∃ (m n : Nat) (rowM rowN : Row) (w : Word), opcodeMap[m]? = some rowM ∧ opcodeMap[n]? = some rowN ∧
      w &&& rowM.mask = rowM.pattern ∧ w &&& rowN.mask = rowN.pattern) ∧
    (∃ (m n : Nat) (rowM rowN : Row), opcodeMap[m]? = some rowM ∧ opcodeMap[n]? = some rowN ∧ m ≠ n) ∧
    (∃ w : Word, ∀ row ∈ opcodeMap, w &&& row.mask ≠ row.pattern) :=
  ⟨⟨_, List.mem_cons_of_mem _ List.mem_cons_self, 0x01FFFF0000FFFFFF, by decide, rfl⟩,
    ⟨7, 7, _, _, 0x0700000000000000, rfl, rfl, by decide, by decide⟩, ⟨0, 7, _, _, rfl, rfl, by decide⟩,
    ⟨0x0700000000000001, by
      intro row h
      simp only [opcodeMap, List.mem_cons, List.not_mem_nil, or_false] at h
      rcases h with rfl | rfl | rfl | rfl | rfl | rfl | rfl | rfl <;> decide⟩⟩

/-- The lowest and the highest reserved bit of each format. -/
theorem witness_NonzeroReservedBitsAreIllegal :
    ((0x0000000000000001 : Word).extractLsb' 56 8 = 0x00 ∧ (0x0000000000000001 : Word).extractLsb' 0 56 ≠ 0) ∧
    ((0x0380000000000000 : Word).extractLsb' 56 8 = 0x03 ∧ (0x0380000000000000 : Word).extractLsb' 0 56 ≠ 0) ∧
    ((0x0400000000000001 : Word).extractLsb' 56 8 = 0x04 ∧ (0x0400000000000001 : Word).extractLsb' 0 56 ≠ 0) ∧
    ((0x0580000000000000 : Word).extractLsb' 56 8 = 0x05 ∧ (0x0580000000000000 : Word).extractLsb' 0 56 ≠ 0) ∧
    ((0x0700000000000001 : Word).extractLsb' 56 8 = 0x07 ∧ (0x0700000000000001 : Word).extractLsb' 0 56 ≠ 0) ∧
    ((0x0100000001000000 : Word).extractLsb' 56 8 = 0x01 ∧ (0x0100000001000000 : Word).extractLsb' 24 16 ≠ 0) ∧
    ((0x0200000000000100 : Word).extractLsb' 56 8 = 0x02 ∧ (0x0200000000000100 : Word).extractLsb' 8 48 ≠ 0) ∧
    ((0x0600008000000000 : Word).extractLsb' 56 8 = 0x06 ∧ (0x0600008000000000 : Word).extractLsb' 0 40 ≠ 0) := by decide

/-- The first and the last reserved opcode. -/
theorem witness_IllegalWordsAreAnsweredIllegalCommand :
    8 ≤ ((0x0800000000000000 : Word).extractLsb' 56 8).toNat ∧ 8 ≤ ((0xFF00000000000000 : Word).extractLsb' 56 8).toNat ∧
    decode 0x0800000000000000 = .illegal .reservedOpcode ∧ decode 0x0300000000000001 = .illegal .reservedField ∧
    (waiting [] [0x0800000000000000]).AcceptsNext 0x0800000000000000 ∧
    (waiting [.core] [0x0300000000000001, 0]).AcceptsNext 0x0300000000000001 := by decide

theorem witness_StepRunsTheDecodedCommand :
    (waiting [] [0x0500000000000000]).AcceptsNext 0x0500000000000000 ∧ decode 0x0500000000000000 = .command .fadeRun := by decide

theorem witness_StepContinuesTheRunningCommand :
    (at_ .exec .fadeStep []).nextMove = .core ∧ (at_ .exec .fadeStep []).ctl = .exec ∧
    (at_ .wait .send [.core]).nextMove = .core ∧ (at_ .wait .send [.core]).ctl = .wait := by decide

/-- An offer while the core waits; NOP in HALTED; a FADE_RUN in DELAY and in HALTED; each multi-step command while MODE names
another one, in EXEC and in WAIT. -/
theorem witness_PortHoldsCommandsOutsideIdle :
    (∃ s t, State.ctl s ≠ .idle ∧ step s = .next t ∧ t.port = s.port ++ [0]) ∧
    (∃ (s : State) (i : Instr), s.ctl ≠ .idle ∧ i ≠ .send ∧ i ≠ .fadeStep ∧ i ≠ .fadeRun) ∧
    ((at_ .delay .fadeRun []).ctl = .delay ∧ (at_ .halted .fadeRun []).ctl = .halted) ∧
    ((at_ .exec .fadeRun []).ctl = .exec ∧ (at_ .exec .fadeRun []).mode ≠ .send ∧ (at_ .exec .fadeRun []).mode ≠ .fadeStep ∧
      (at_ .wait .send []).ctl = .wait ∧ (at_ .wait .send []).mode ≠ .fadeRun) :=
  ⟨⟨at_ .wait .send [.offer 0], _, by decide, rfl, rfl⟩, ⟨at_ .halted .send [], .nop, by decide, by decide, by decide, by decide⟩,
    by decide, by decide⟩

theorem witness_CoreWithNoStepChangesNothing :
    (at_ .delay .fadeRun []).nextMove = .core ∧ (at_ .delay .fadeRun []).ctl = .delay ∧ (at_ .halted .send []).ctl = .halted ∧
    (at_ .wait .send []).ctl = .wait ∧ (at_ .wait .send []).done = false ∧ (at_ .idle .send []).ctl = .idle ∧
    (at_ .idle .send []).port = [] := by decide

theorem witness_NopAnswersOk :
    ((0x0080000000000000 : Word).extractLsb' 56 8 = 0x00 ∧ (0x0080000000000000 : Word).extractLsb' 0 56 ≠ 0) ∧
    State.reset.ctl = .idle ∧ (∃ t, (at_ .delay .send []).ctl ≠ .idle ∧ exec .nop (at_ .delay .send []) = .next t) :=
  ⟨by decide, by decide, _, by decide, rfl⟩

/-- The last valid index. -/
theorem witness_SetColorWritesTheThreeChannels :
    State.reset.ctl = .idle ∧ State.reset.leds[(3 : LedIndex).toNat]? = some ⟨⟨63, 192, 0⟩, 0⟩ := by decide

/-- N itself and the greatest index; N - 1 and 0. -/
theorem witness_IndexesFromNAreOutOfRange :
    State.reset.ctl = .idle ∧ State.reset.numLeds ≤ (4 : LedIndex).toNat ∧ State.reset.numLeds ≤ (65535 : LedIndex).toNat ∧
    (3 : LedIndex).toNat < State.reset.numLeds ∧ (0 : LedIndex).toNat < State.reset.numLeds := by decide

theorem witness_SetBrightnessWritesBri : State.reset.ctl = .idle := by decide

theorem witness_GetColorAnswersTheStoredLed :
    { State.reset with leds := [⟨⟨1, 2, 3⟩, 3⟩] }.ctl = .idle ∧
    { State.reset with leds := [⟨⟨1, 2, 3⟩, 3⟩] }.leds[(0 : LedIndex).toNat]? = some ⟨⟨1, 2, 3⟩, 3⟩ := by decide

theorem witness_GetBrightnessAnswersBri : State.reset.ctl = .idle := by decide

/-- V-SC3. -/
theorem witness_ReadBackIsIndependentOfBrightness :
    ∃ t u v, State.reset.ctl = .idle ∧ (2 : LedIndex).toNat < State.reset.numLeds ∧
      exec (.setColor 2 10 20 30) State.reset = .next t ∧ exec (.setBrightness 7) t = .next u ∧
      exec (.getColor 2) u = .next v := ⟨_, _, _, by decide, by decide, rfl, rfl, rfl⟩

theorem witness_SingleStepCommandsLeaveTheRest :
    (∃ t, exec .nop State.reset = .next t) ∧ (∃ t, exec (.getColor 3) State.reset = .next t) ∧
    (∃ t, exec .getBrightness State.reset = .next t) ∧ (∃ t, exec (.setBrightness 1) State.reset = .next t) ∧
    (∃ t, exec (.setColor 3 1 2 3) State.reset = .next t ∧ (2 : Nat) ≠ (3 : LedIndex).toNat) :=
  ⟨⟨_, rfl⟩, ⟨_, rfl⟩, ⟨_, rfl⟩, ⟨_, rfl⟩, ⟨_, rfl, by decide⟩⟩

theorem witness_MultiStepCommandsEnterExec :
    State.reset.ctl = .idle ∧ State.reset.cfg.hasTimeout = false ∧ (timed .idle .send []).ctl = .idle ∧
    (timed .idle .send []).pendingLateBit = false := by decide

theorem witness_RenderingCommandsAreBusyAfterATimeout :
    { timed .idle .send [.completion] with pendingLateBit := true }.ctl = .idle ∧
    { timed .idle .send [.completion] with pendingLateBit := true }.cfg.hasTimeout = true ∧
    { timed .idle .send [.completion] with pendingLateBit := true }.pendingLateBit = true ∧
    { timed .idle .send [.completion] with pendingLateBit := true }.nextMove = .completion := by decide

theorem witness_SendRendersSubmitsAndWaits : (at_ .exec .send []).ctl = .exec ∧ (at_ .exec .send []).mode = .send := by decide

theorem witness_ConsumeContinuesByMode :
    { at_ .wait .send [] with done := true }.ctl = .wait ∧ { at_ .wait .send [] with done := true }.done = true ∧
    { at_ .wait .send [] with done := true }.mode = .send ∧ { at_ .wait .fadeStep [] with done := true }.mode = .fadeStep ∧
    { at_ .wait .fadeRun [] with done := true }.mode = .fadeRun ∧ (at_ .wait .fadeRun []).done = false := by decide

theorem witness_FadeIterationAdvancesEveryLedAndSends :
    (at_ .exec .fadeStep []).ctl = .exec ∧ (at_ .exec .fadeStep []).mode = .fadeStep ∧ (at_ .exec .fadeRun []).ctl = .exec ∧
    (at_ .exec .fadeRun []).mode = .fadeRun ∧ (at_ .exec .fadeRun []).cancel = false ∧
    (∀ led ∈ State.reset.leds, led.level ≠ 3) := by decide

/-- The illegal LED first and the illegal LED last. -/
theorem witness_IllegalLevelHaltsTheFade :
    ∃ (bad other : Led) (s s' : State), bad.level = 3 ∧ other.level ≠ 3 ∧
      s.ctl = .exec ∧ s.mode = .fadeStep ∧ s.leds = [] ++ bad :: [other] ∧ (∀ led ∈ ([] : List Led), led.level ≠ 3) ∧
      s'.ctl = .exec ∧ s'.mode = .fadeRun ∧ s'.cancel = false ∧ s'.leds = [other] ++ bad :: [] ∧
      (∀ led ∈ [other], led.level ≠ 3) :=
  ⟨⟨⟨1, 2, 3⟩, 3⟩, ⟨⟨9, 3, 250⟩, 2⟩, { at_ .exec .fadeStep [] with leds := [⟨⟨1, 2, 3⟩, 3⟩, ⟨⟨9, 3, 250⟩, 2⟩] },
    { at_ .exec .fadeRun [] with leds := [⟨⟨9, 3, 250⟩, 2⟩, ⟨⟨1, 2, 3⟩, 3⟩] }, by decide⟩

theorem witness_CancelledFadeRunAnswersIter :
    { at_ .exec .fadeRun [] with cancel := true }.ctl = .exec ∧ { at_ .exec .fadeRun [] with cancel := true }.mode = .fadeRun ∧
    { at_ .exec .fadeRun [] with cancel := true }.cancel = true := by decide

theorem witness_MultiStepCommandsLeaveTheRest :
    (∃ t, exec .send (at_ .exec .send []) = .next t) ∧ (∃ t, exec .fadeStep (at_ .exec .fadeStep []) = .next t) ∧
    (∃ t, exec .fadeRun (at_ .exec .fadeRun []) = .next t) ∧
    (∃ t, (at_ .wait .send []).ctl ≠ .exec ∧ exec .send (at_ .wait .send []) = .next t) :=
  ⟨⟨_, rfl⟩, ⟨_, rfl⟩, ⟨_, rfl⟩, ⟨_, by decide, rfl⟩⟩

theorem witness_SendRunsToItsResponse :
    (waiting ([.core, .core, .completion, .core] ++ []) [0x0300000000000000]).ctl = .idle ∧
    (waiting ([.core, .core, .completion, .core] ++ []) [0x0300000000000000]).done = false ∧
    (waiting ([.core, .core, .completion, .core] ++ []) [0x0300000000000000]).cfg.hasTimeout = false ∧
    (waiting ([.core, .core, .completion, .core] ++ []) [0x0300000000000000]).port.head? = some 0x0300000000000000 ∧
    (waiting ([.core, .core, .completion, .core] ++ []) [0x0300000000000000]).schedule =
      [.core, .core, .completion, .core] ++ [] := by decide

theorem witness_FadeStepRunsToItsResponse :
    (waiting ([.core, .core, .completion, .core, .delayEnd] ++ []) [0x0400000000000000]).ctl = .idle ∧
    (waiting ([.core, .core, .completion, .core, .delayEnd] ++ []) [0x0400000000000000]).done = false ∧
    (waiting ([.core, .core, .completion, .core, .delayEnd] ++ []) [0x0400000000000000]).cfg.hasTimeout = false ∧
    (∀ led ∈ (waiting ([.core, .core, .completion, .core, .delayEnd] ++ []) [0x0400000000000000]).leds, led.level ≠ 3) ∧
    (waiting ([.core, .core, .completion, .core, .delayEnd] ++ []) [0x0400000000000000]).port.head? =
      some 0x0400000000000000 := by decide

/-- No iteration, and two. -/
theorem witness_FadeRunAnswersTheNumberOfItsIterations :
    (waiting [.core, .driveCancel true, .core] [0x0500000000000000]).ctl = .idle ∧
    (waiting [.core, .driveCancel true, .core] [0x0500000000000000]).done = false ∧
    (waiting [.core, .driveCancel true, .core] [0x0500000000000000]).outstanding = false ∧
    (waiting [.core, .driveCancel true, .core] [0x0500000000000000]).cancel = false ∧
    (waiting [.core, .driveCancel true, .core] [0x0500000000000000]).cfg.hasTimeout = false ∧
    (∀ led ∈ (waiting [.core, .driveCancel true, .core] [0x0500000000000000]).leds, led.level ≠ 3) ∧
    (waiting [.core, .driveCancel true, .core] [0x0500000000000000]).port.head? = some 0x0500000000000000 ∧
    (waiting [.core, .driveCancel true, .core] [0x0500000000000000]).schedule =
      .core :: (List.replicate 0 [.core, .completion, .core, .delayEnd]).flatten ++ [.driveCancel true, .core] ++ [] ∧
    (waiting [.core, .core, .completion, .core, .delayEnd, .core, .completion, .core, .delayEnd, .driveCancel true, .core]
        [0x0500000000000000]).schedule =
      .core :: (List.replicate 2 [.core, .completion, .core, .delayEnd]).flatten ++ [.driveCancel true, .core] ++ [] := by
  decide

theorem witness_ScalerLaws :
    (254 : Byte).toNat ≤ (255 : Byte).toNat ∧ (0 : Byte).toNat ≤ (0 : Byte).toNat := by decide

/-- A FADE_STEP from the reset colours, and a SEND of the colours it leaves. -/
theorem witness_RenderDependsOnColoursAndBrightnessOnly :
    ∃ (s s' t t' : State), s.ctl = .exec ∧ s'.ctl = .exec ∧ exec .fadeStep s = .next t ∧ exec .send s' = .next t' ∧
      t.ctl = .wait ∧ t'.ctl = .wait ∧ s.cfg = s'.cfg ∧ s.bri = s'.bri ∧ t.leds.map Led.color = t'.leds.map Led.color :=
  ⟨at_ .exec .fadeStep [], { at_ .exec .send [] with
    iter := 7, pb := [], leds := [⟨⟨250, 5, 0⟩, 1⟩, ⟨⟨186, 69, 0⟩, 0⟩, ⟨⟨122, 133, 0⟩, 0⟩, ⟨⟨58, 197, 0⟩, 2⟩] }, _, _,
    rfl, rfl, rfl, rfl, by decide, by decide, rfl, rfl, by decide⟩

/-- The last advance of a leg and an advance at its end point. -/
theorem witness_AdvanceKeepsTheChannelSum :
    (⟨⟨1, 254, 0⟩, 0⟩ : Led).level ≠ 3 ∧ fallingValue ⟨⟨1, 254, 0⟩, 0⟩ + risingValue ⟨⟨1, 254, 0⟩, 0⟩ = 255 ∧
    Led.advance 5 ⟨⟨1, 254, 0⟩, 0⟩ = some ⟨⟨0, 255, 0⟩, 1⟩ ∧
    fallingValue ⟨⟨0, 255, 7⟩, 0⟩ + risingValue ⟨⟨0, 255, 7⟩, 0⟩ = 255 ∧
    Led.advance 0 ⟨⟨0, 255, 7⟩, 0⟩ = some ⟨⟨0, 255, 7⟩, 1⟩ := by decide

/-- A falling channel of 0, and one of 255 with STEP = 1. -/
theorem witness_LegTakesCeilOfFallingOverStep :
    (1 : Byte) ≠ 0 ∧ (⟨⟨0, 255, 7⟩, 0⟩ : Led).level ≠ 3 ∧ fallingValue ⟨⟨0, 255, 7⟩, 0⟩ + risingValue ⟨⟨0, 255, 7⟩, 0⟩ = 255 ∧
    0 < max 1 ((fallingValue ⟨⟨0, 255, 7⟩, 0⟩ + (1 : Byte).toNat - 1) / (1 : Byte).toNat) ∧
    fallingValue ⟨⟨7, 255, 0⟩, 1⟩ + risingValue ⟨⟨7, 255, 0⟩, 1⟩ = 255 ∧
    254 < max 1 ((fallingValue ⟨⟨7, 255, 0⟩, 1⟩ + (1 : Byte).toNat - 1) / (1 : Byte).toNat) := by decide

theorem witness_CompletionEffect :
    ((at_ .halted .send [.completion]).nextMove = .completion ∧ (at_ .halted .send [.completion]).ctl = .halted) ∧
    ((at_ .wait .send [.completion]).ctl = .wait ∧ (at_ .wait .send [.completion]).done = false) ∧
    ({ timed .idle .send [.completion] with pendingLateBit := true }.ctl ≠ .halted ∧
      ¬({ timed .idle .send [.completion] with pendingLateBit := true }.ctl = .wait ∧
        { timed .idle .send [.completion] with pendingLateBit := true }.done = false) ∧
      { timed .idle .send [.completion] with pendingLateBit := true }.cfg.hasTimeout = true ∧
      { timed .idle .send [.completion] with pendingLateBit := true }.pendingLateBit = true) ∧
    ({ at_ .wait .send [.completion] with done := true }.ctl ≠ .halted ∧
      ¬({ at_ .wait .send [.completion] with done := true }.ctl = .wait ∧
        { at_ .wait .send [.completion] with done := true }.done = false) ∧
      { at_ .wait .send [.completion] with done := true }.cfg.hasTimeout = false) := by decide

theorem witness_DelayEndEffect :
    (at_ .delay .fadeStep [.delayEnd]).nextMove = .delayEnd ∧ (at_ .delay .fadeStep [.delayEnd]).ctl = .delay ∧
    (at_ .delay .fadeStep [.delayEnd]).mode = .fadeStep ∧
    { at_ .delay .fadeRun [.delayEnd] with iter := 0xFFFFFFFF }.ctl = .delay ∧
    { at_ .delay .fadeRun [.delayEnd] with iter := 0xFFFFFFFF }.mode = .fadeRun := by decide

theorem witness_TimeoutEffect :
    (timed .wait .fadeRun [.timeout]).nextMove = .timeout ∧ (timed .wait .fadeRun [.timeout]).cfg.hasTimeout = true ∧
    (timed .wait .fadeRun [.timeout]).ctl = .wait ∧ (timed .wait .fadeRun [.timeout]).done = false ∧
    ∃ t, step (waiting [] [0x0800000000000000]) = .next t ∧ (waiting [] [0x0800000000000000]).cfg.hasTimeout = false ∧
      (waiting [] [0x0800000000000000]).pendingLateBit = false ∧ t.responses = [] ++ [0x0200000000000000] :=
  ⟨by decide, by decide, by decide, by decide, _, rfl, by decide, by decide, rfl⟩

theorem witness_EventsNotEnabledChangeNothing :
    (at_ .exec .fadeRun [.delayEnd]).nextMove = .delayEnd ∧ (at_ .exec .fadeRun [.delayEnd]).ctl ≠ .delay ∧
    (at_ .wait .send [.timeout]).nextMove = .timeout ∧ (at_ .wait .send [.timeout]).cfg.hasTimeout = false ∧
    (timed .exec .send [.timeout]).ctl ≠ .wait ∧ { timed .wait .send [.timeout] with done := true }.done = true := by decide

theorem witness_CompletionBeatsTheTimeout :
    (timed .wait .send [.completionWithTimeout]).nextMove = .completionWithTimeout ∧
    (timed .wait .send [.completionWithTimeout]).ctl = .wait ∧ (timed .wait .send [.completionWithTimeout]).done = false := by
  decide

theorem witness_WaitWithoutTimeoutEndsByCompletionOrReset :
    ∃ t, (at_ .wait .send [.offer 0]).Waiting ∧ (at_ .wait .send [.offer 0]).cfg.hasTimeout = false ∧
      step (at_ .wait .send [.offer 0]) = .next t ∧ (at_ .wait .send [.offer 0]).nextMove ≠ .completion ∧
      (at_ .wait .send [.offer 0]).nextMove ≠ .completionWithTimeout ∧ (at_ .wait .send [.offer 0]).nextMove ≠ .reset :=
  ⟨_, by decide, by decide, rfl, by decide, by decide, by decide⟩

theorem witness_HaltedIsLeftByResetOnly :
    (∃ s t, State.ctl s = .halted ∧ step s = .next t ∧ s.nextMove ≠ .reset) ∧
    (∃ s t, State.ctl s = .halted ∧ step s = .next t ∧ s.nextMove = .reset) :=
  ⟨⟨at_ .halted .send [.completion], _, rfl, rfl, by decide⟩, ⟨at_ .halted .send [.reset], _, rfl, rfl, rfl⟩⟩

theorem witness_ResetRestoresEveryElement : (at_ .wait .fadeRun [.reset]).nextMove = .reset := by decide

theorem witness_ResetStatesMeetTheInvariant :
    tinyConfig.Legal ∧ (List.replicate 25 100).length = 24 * tinyConfig.N + tinyConfig.latchLen ∧
    (∀ e ∈ List.replicate 25 100, e < 2 ^ tinyConfig.dutyWidth) := by decide

/-- A submission in flight, its completion next. -/
theorem witness_EveryStepKeepsTheBlockConsistent :
    ∃ t, (tinyInFlight [.completion]).Inv ∧ step (tinyInFlight [.completion]) = .next t := ⟨_, by decide, rfl⟩

theorem witness_HonestTransportNeverHaltsTheBlock :
    ∃ t, (tinyInFlight [.completion]).Inv ∧ (tinyInFlight [.completion]).ctl ≠ .halted ∧
      (tinyInFlight [.completion]).TransportKeepsContract ∧ step (tinyInFlight [.completion]) = .next t :=
  ⟨_, by decide, by decide, by decide, rfl⟩

theorem witness_ParametersAndCancelAreNotTheBlocksToWrite :
    ∃ t, step (at_ .exec .fadeRun [.reset]) = .next t ∧ ∀ v, (at_ .exec .fadeRun [.reset]).nextMove ≠ .driveCancel v :=
  ⟨_, rfl, by decide⟩

theorem witness_BrightnessHasOneWriter :
    (∃ t, step (waiting [] [0x02000000000000FF]) = .next t ∧ t.bri ≠ (waiting [] [0x02000000000000FF]).bri) ∧
    (∃ t, step { waiting [.reset] [] with bri := 7 } = .next t ∧ t.bri ≠ { waiting [.reset] [] with bri := 7 }.bri) :=
  ⟨⟨_, rfl, by decide⟩, ⟨_, rfl, by decide⟩⟩

theorem witness_ColourStoreAndLevelWriters :
    (∃ t, step (waiting [] [0x0100030000010203]) = .next t ∧ t.leds ≠ (waiting [] [0x0100030000010203]).leds) ∧
    (∃ t, step (at_ .exec .fadeRun []) = .next t ∧ t.leds ≠ (at_ .exec .fadeRun []).leds) ∧
    (∃ t, step { at_ .exec .fadeRun [.reset] with leds := [] } = .next t ∧
      t.leds ≠ { at_ .exec .fadeRun [.reset] with leds := [] }.leds) :=
  ⟨⟨_, rfl, by decide⟩, ⟨_, rfl, by decide⟩, ⟨_, rfl, by decide⟩⟩

theorem witness_PulseBufferIsNotWrittenInFlight :
    ∃ t, (tinyInFlight []).Inv ∧ step (tinyInFlight []) = .next t ∧ (tinyInFlight []).nextMove ≠ .reset ∧
      (tinyInFlight []).ctl = .wait ∧ t.outstanding = true := ⟨_, by decide, rfl, by decide, by decide, rfl⟩

theorem witness_SubmissionsAreSerialised :
    ∃ t, (tiny .exec .send []).Inv ∧ step (tiny .exec .send []) = .next t ∧ t.submissions ≠ (tiny .exec .send []).submissions :=
  ⟨_, by decide, rfl, by decide⟩

theorem witness_AtMostOneResponsePerStep : ∃ t, step (waiting [] [0]) = .next t ∧ t.responses = [0] := ⟨_, rfl, rfl⟩

theorem witness_CancelIsReadAtTheTopOfFadeRunOnly :
    ∃ t, (∀ u, (at_ .exec .fadeStep []).nextMove ≠ .driveCancel u) ∧
      ¬((at_ .exec .fadeStep []).nextMove = .core ∧ (at_ .exec .fadeStep []).ctl = .exec ∧
        (at_ .exec .fadeStep []).mode = .fadeRun) ∧ step (at_ .exec .fadeStep []) = .next t := ⟨_, by decide, by decide, rfl⟩

theorem witness_ControllerTransitions :
    ∃ t, step (waiting [] [0x0300000000000000]) = .next t ∧ t.ctl ≠ (waiting [] [0x0300000000000000]).ctl := ⟨_, rfl, by decide⟩

theorem witness_FlagWriters :
    (∃ t, step (at_ .wait .send [.completion]) = .next t ∧ (at_ .wait .send [.completion]).done = false ∧ t.done = true) ∧
    (∃ t, step { at_ .wait .send [] with done := true } = .next t ∧ t.done = false) ∧
    (∃ t, step (timed .wait .send [.timeout]) = .next t ∧ t.pendingLateBit = true) ∧
    (∃ t, step { timed .idle .send [.completion] with pendingLateBit := true } = .next t ∧ t.pendingLateBit = false) :=
  ⟨⟨_, rfl, rfl, rfl⟩, ⟨_, rfl, rfl⟩, ⟨_, rfl, rfl⟩, ⟨_, rfl, rfl⟩⟩

/-- The greatest number of each field, and the least outside it. -/
theorem witness_AssembledLinesDecodeToTheirCommands :
    (Asm.getBrightness, Instr.getBrightness) ∈ [(Asm.nop, Instr.nop), (.send, .send), (.fadeStep, .fadeStep),
      (.fadeRun, .fadeRun), (.getBrightness, .getBrightness)] ∧
    (65535 : Nat) < 65536 ∧ (255 : Nat) < 256 ∧ (0xFFFFFFFFFFFFFFFF : Nat) < 2 ^ 64 ∧ 65536 ≤ (65536 : Nat) ∧
    256 ≤ (256 : Nat) ∧ 2 ^ 64 ≤ (0x10000000000000000 : Nat) := by decide

theorem witness_PseudoInstructionsAssembleAsTheirExpansions :
    (65536 : Nat) ≤ 65536 ∧ (255 : Nat) < 256 := by decide

end Sys2Proof.Machine.Tests
end

section
/-! PROOFS. The statements on the scope of the block (00_scope.md): the parameters and CANCEL, the hang without a timeout, and
the serialised submissions; before them, what the events and the core leave unchanged. -/

namespace Sys2Proof.Machine

open Sys2Proof

/-! ### Frames of the events and of the core's step -/

/-- R179: a completion writes OUTSTANDING, DONE, PENDING_LATE, FAULT_CODE and CTL, and nothing else. -/
theorem completionEvent_frame (s : State) :
    s.completionEvent =
      { s with
        outstanding := s.completionEvent.outstanding
        done := s.completionEvent.done
        pendingLateBit := s.completionEvent.pendingLateBit
        faultCode := s.completionEvent.faultCode
        ctl := s.completionEvent.ctl } := by
  rcases completionEvent_cases s with ⟨-, h⟩ | ⟨-, -, h⟩ | ⟨-, -, -, h⟩ | ⟨-, -, -, h⟩ <;> rw [h]

/-- R180: a delay end writes the response record, ITER and CTL, and nothing else. -/
theorem delayEndEvent_frame (s : State) :
    s.delayEndEvent =
      { s with
        responses := s.delayEndEvent.responses
        iter := s.delayEndEvent.iter
        ctl := s.delayEndEvent.ctl } := by
  rcases delayEndEvent_cases s with ⟨-, -, h⟩ | ⟨-, -, h⟩ | ⟨-, h⟩
  · rw [h]; rfl
  · rw [h]; rfl
  · rw [h]

/-- R181: a timeout writes PENDING_LATE, the response record and CTL, and nothing else. -/
theorem timeoutEvent_frame (s : State) :
    s.timeoutEvent =
      { s with
        pendingLateBit := s.timeoutEvent.pendingLateBit
        responses := s.timeoutEvent.responses
        ctl := s.timeoutEvent.ctl } := by
  rcases timeoutEvent_cases s with ⟨-, -, -, h⟩ | ⟨-, h⟩
  · rw [h]; rfl
  · rw [h]

@[simp] theorem completionEvent_cfg (s : State) : s.completionEvent.cfg = s.cfg := by
  rw [completionEvent_frame]
@[simp] theorem completionEvent_cancel (s : State) : s.completionEvent.cancel = s.cancel := by
  rw [completionEvent_frame]
@[simp] theorem completionEvent_submissions (s : State) : s.completionEvent.submissions = s.submissions := by
  rw [completionEvent_frame]

@[simp] theorem delayEndEvent_cfg (s : State) : s.delayEndEvent.cfg = s.cfg := by
  rw [delayEndEvent_frame]
@[simp] theorem delayEndEvent_cancel (s : State) : s.delayEndEvent.cancel = s.cancel := by
  rw [delayEndEvent_frame]
@[simp] theorem delayEndEvent_submissions (s : State) : s.delayEndEvent.submissions = s.submissions := by
  rw [delayEndEvent_frame]

@[simp] theorem timeoutEvent_cfg (s : State) : s.timeoutEvent.cfg = s.cfg := by
  rw [timeoutEvent_frame]
@[simp] theorem timeoutEvent_cancel (s : State) : s.timeoutEvent.cancel = s.cancel := by
  rw [timeoutEvent_frame]
@[simp] theorem timeoutEvent_submissions (s : State) : s.timeoutEvent.submissions = s.submissions := by
  rw [timeoutEvent_frame]

@[simp] theorem platformReset_cfg (s : State) : s.platformReset.cfg = s.cfg := rfl
@[simp] theorem platformReset_cancel (s : State) : s.platformReset.cancel = s.cancel := rfl
@[simp] theorem platformReset_submissions (s : State) : s.platformReset.submissions = s.submissions := rfl

/-- R5, R33: whatever the core does, it writes neither the parameters nor CANCEL. -/
theorem coreStep_cfg_cancel {s t : State} (h : coreStep s = .next t) : t.cfg = s.cfg ∧ t.cancel = s.cancel := by
  rcases coreStep_results h with ⟨-, rfl⟩ | ⟨w, rest, st, d, -, -, -, -, rfl⟩ | ⟨w, rest, idx, r, g, b, -, -, -, -, rfl⟩ |
    ⟨w, rest, lvl, -, -, -, rfl⟩ | ⟨w, rest, m, -, -, -, rfl⟩ | ⟨-, -, rfl⟩ | ⟨-, -, -, rfl⟩ | ⟨-, -, -, rfl⟩ |
    ⟨-, -, -, rfl⟩ | ⟨-, -, -, rfl⟩ | ⟨-, -, -, rfl⟩ <;> exact ⟨rfl, rfl⟩

/-! ### The parameters and CANCEL (R5, R33) -/

/-- Settles O47: the agent that moves decides it; of all moves only the host's drive of CANCEL writes either. -/
theorem parametersAndCancelAreNotTheBlocksToWrite : Obligations.ParametersAndCancelAreNotTheBlocksToWrite := by
  intro s t h
  rcases step_cases h with ⟨-, hc⟩ | ⟨w, -, rfl⟩ | ⟨v, hm, rfl⟩ | ⟨-, rfl⟩ | ⟨-, rfl⟩ | ⟨-, rfl⟩ | ⟨-, rfl⟩
  · obtain ⟨hcfg, hcancel⟩ := coreStep_cfg_cancel hc
    exact ⟨hcfg, fun _ => hcancel⟩
  · exact ⟨rfl, fun _ => rfl⟩
  · exact ⟨rfl, fun hno => absurd hm (hno v)⟩
  · simp
  · simp
  · simp
  · simp

/-! ### Waiting without a timeout (R108, R206) -/

/-- R108: the core polls while it waits, which changes no state. -/
theorem coreStep_of_waiting {s : State} (h : s.Waiting) : coreStep s = .next s := by
  obtain ⟨hw, hd⟩ := h
  rcases running_cases (.inr hw) with ⟨he, -⟩ | ⟨he, -⟩ | ⟨he, -⟩ | ⟨-, hc⟩
  · simp [hw] at he
  · simp [hw] at he
  · simp [hw] at he
  · rw [hc, consume_of_not_done hd]

/-- R180: a delay end outside DELAY does not happen. -/
theorem delayEndEvent_of_not_delay {s : State} (h : s.ctl ≠ .delay) : s.delayEndEvent = s := by
  rcases delayEndEvent_cases s with ⟨hc, -⟩ | ⟨hc, -⟩ | ⟨-, he⟩
  · exact absurd hc h
  · exact absurd hc h
  · exact he

/-- R181: without HAS_TIMEOUT a timeout does not happen. -/
theorem timeoutEvent_of_no_timeout {s : State} (h : s.cfg.hasTimeout = false) : s.timeoutEvent = s := by
  rcases timeoutEvent_cases s with ⟨ht, -⟩ | ⟨-, he⟩
  · simp [h] at ht
  · exact he

/-- R206: a wait without HAS_TIMEOUT stands but for the host's inputs and the schedule, unless a completion or a reset comes. -/
theorem step_of_waiting_without_timeout {s t : State} (hw : s.Waiting) (ht : s.cfg.hasTimeout = false)
    (h : step s = .next t) (hcompletion : s.nextMove ≠ .completion)
    (hboth : s.nextMove ≠ .completionWithTimeout) (hreset : s.nextMove ≠ .reset) :
    t = { s with schedule := t.schedule, port := t.port, cancel := t.cancel } := by
  rcases step_cases h with ⟨-, hc⟩ | ⟨w, -, rfl⟩ | ⟨v, -, rfl⟩ | ⟨hm, -⟩ | ⟨-, rfl⟩ | ⟨-, rfl⟩ | ⟨hm, -⟩
  · rw [coreStep_of_waiting (s := s.popMove) hw] at hc
    cases hc
    rfl
  · rfl
  · rfl
  · exact absurd hm (not_or.2 ⟨hcompletion, hboth⟩)
  · rw [delayEndEvent_of_not_delay (s := s.popMove) (by simp [hw.1])]
    rfl
  · rw [timeoutEvent_of_no_timeout (s := s.popMove) ht]
    rfl
  · exact absurd hm hreset

/-- Settles O39, from the frame of a step of such a wait. -/
theorem waitWithoutTimeoutEndsByCompletionOrReset : Obligations.WaitWithoutTimeoutEndsByCompletionOrReset := by
  intro s t hw ht h hcompletion hboth hreset
  rw [step_of_waiting_without_timeout hw ht h hcompletion hboth hreset]
  exact ⟨hw, by simp [State.busyOutput, hw.1], rfl, rfl, rfl⟩

/-! ### Submissions (R107, R203) -/

/-- R107, R109: a frame send adds one submission, the frame of the colours and the brightness held. -/
@[simp] theorem sendFrame_submissions (s : State) :
    s.sendFrame.submissions =
      s.submissions ++ [⟨pulseSequence s.cfg s.bri (s.leds.map Led.color), s.cfg.channel⟩] := rfl

/-- The core submits nothing, or it is in EXEC and its step ends in one frame send, of as many LEDs as it holds
(R109, R115, R144). -/
theorem coreStep_submissions {s t : State} (h : coreStep s = .next t) :
    t.submissions = s.submissions ∨
    (s.ctl = .exec ∧ ∃ leds, leds.length = s.numLeds ∧ t = State.sendFrame { s with leds := leds }) := by
  rcases coreStep_results h with ⟨-, rfl⟩ | ⟨w, rest, st, d, -, -, -, -, rfl⟩ | ⟨w, rest, idx, r, g, b, -, -, -, -, rfl⟩ |
    ⟨w, rest, lvl, -, -, -, rfl⟩ | ⟨w, rest, m, -, -, -, rfl⟩ | ⟨he, -, rfl⟩ | ⟨-, -, -, rfl⟩ | ⟨-, -, -, rfl⟩ |
    ⟨he, -, -, rfl⟩ | ⟨-, -, -, rfl⟩ | ⟨-, -, -, rfl⟩
  · exact .inl rfl
  · exact .inl rfl
  · exact .inl rfl
  · exact .inl rfl
  · exact .inl rfl
  · exact .inr ⟨he, s.leds, rfl, rfl⟩
  · exact .inl rfl
  · exact .inl rfl
  · exact .inr ⟨he, _, advanceAll_length s.cfg.fadeStep s.leds, rfl⟩
  · exact .inl rfl
  · exact .inl rfl

/-- The same of a whole step: no other agent's move submits. -/
theorem step_submissions {s t : State} (h : step s = .next t) :
    t.submissions = s.submissions ∨
    (s.ctl = .exec ∧ ∃ leds, leds.length = s.numLeds ∧ t = State.sendFrame { s.popMove with leds := leds }) := by
  rcases step_cases h with ⟨-, hc⟩ | ⟨w, -, rfl⟩ | ⟨v, -, rfl⟩ | ⟨-, rfl⟩ | ⟨-, rfl⟩ | ⟨-, rfl⟩ | ⟨-, rfl⟩
  · exact coreStep_submissions hc
  · exact .inl rfl
  · exact .inl rfl
  · exact .inl (by simp)
  · exact .inl (by simp)
  · exact .inl (by simp)
  · exact .inl (by simp)

/-- R203: under the invariant nothing is outstanding in EXEC: the core does not wait, and a late completion is owed in IDLE
only. -/
theorem outstanding_eq_false_of_exec {s : State} (hinv : s.Inv) (he : s.ctl = .exec) : s.outstanding = false := by
  obtain ⟨-, -, -, ⟨-, hlate⟩, ⟨hout, -⟩, -⟩ := hinv
  rw [Bool.eq_false_iff]
  intro ho
  rcases hout.1 ho with ⟨hw, -⟩ | hp
  · simp [he] at hw
  · simpa [he] using (hlate hp).2

/-- Settles O51: a step that submits is a frame send from EXEC, whose sequence is the render's. -/
theorem submissionsAreSerialised : Obligations.SubmissionsAreSerialised := by
  intro s t hinv h hne
  obtain hsame | ⟨he, leds, hlen, rfl⟩ := step_submissions h
  · exact absurd hsame hne
  have hframe := pulseSequence_carriesFrame s.cfg s.bri leds
  have hnone := outstanding_eq_false_of_exec hinv he
  obtain ⟨⟨-, hN⟩, -⟩ := hinv
  have hentries : (pulseSequence s.cfg s.bri (leds.map Led.color)).length = 24 * s.cfg.N + s.cfg.latchLen := by
    rw [pulseSequence_length, List.length_map, hlen, hN]
  exact ⟨hnone, rfl, rfl, _, sendFrame_submissions _, hframe, hentries⟩

end Sys2Proof.Machine
end

section
/-! PROOFS. The statements on the state (10_state.md): the invariant of the block, what each command and each move leaves
unchanged, who writes each element, and the run of a FADE_RUN; before them, the equations of the step and of the commands. -/

namespace Sys2Proof.Machine

open Sys2Proof

/-! ### The equations of the step (R7, R29, R85) -/

theorem step_of_core {s : State} (h : s.nextMove = .core) : step s = coreStep s.popMove := by
  simp [step, h, takeMove]

/-- R85: in IDLE the core runs the command that the next word of the port decodes to. -/
theorem coreStep_of_command {s : State} {w : Word} {rest : List Word} {i : Instr} (hi : s.ctl = .idle)
    (hp : s.port = w :: rest) (hd : decode w = .command i) : coreStep s = exec i { s with port := rest } := by
  simp [coreStep, hi, hp, accept, hd]

/-- R172: in IDLE the core answers an illegal word, which leaves the port. -/
theorem coreStep_of_illegal {s : State} {w : Word} {rest : List Word} {why : Illegal} (hi : s.ctl = .idle)
    (hp : s.port = w :: rest) (hd : decode w = .illegal why) :
    coreStep s = .next (State.respond { s with port := rest } .illegalCommand 0) := by
  simp [coreStep, hi, hp, accept, hd]

/-- R30: in EXEC and WAIT the core runs the command MODE names. -/
theorem coreStep_of_running {s : State} (h : s.ctl = .exec ∨ s.ctl = .wait) :
    coreStep s = exec (runningCommand s.mode) s := by
  rcases h with h | h <;> simp [coreStep, h]

/-- The head of the port, as a step of the core sees it, is the word the core accepts next. -/
theorem acceptsNext_of_port {s : State} {w : Word} {rest : List Word} (hm : s.nextMove = .core) (hi : s.popMove.ctl = .idle)
    (hp : s.popMove.port = w :: rest) : s.AcceptsNext w :=
  ⟨hi, List.head?_eq_some_iff.2 ⟨rest, hp⟩, hm⟩

/-! ### The equations of the commands (R85, R108-R115, R145, R146) -/

theorem exec_send (s : State) : exec .send s = .next (s.multiStep .send State.sendFrame) := rfl
theorem exec_fadeStep (s : State) : exec .fadeStep s = .next (s.multiStep .fadeStep State.fadeIteration) := rfl
theorem exec_fadeRun (s : State) : exec .fadeRun s = .next (s.multiStep .fadeRun State.runTop) := rfl

/-- Every command but the multi-step ones is a single-step command, which outside IDLE leaves the state (R29). -/
theorem exec_of_not_idle {s : State} {i : Instr} (h : s.ctl ≠ .idle) (hsend : i ≠ .send) (hstep : i ≠ .fadeStep)
    (hrun : i ≠ .fadeRun) : exec i s = .next s := by
  cases i with
  | send => exact absurd rfl hsend
  | fadeStep => exact absurd rfl hstep
  | fadeRun => exact absurd rfl hrun
  | nop => exact congrArg _ (singleStep_of_not_idle h _)
  | setColor idx r g b => exact congrArg _ (singleStep_of_not_idle h _)
  | setBrightness lvl => exact congrArg _ (singleStep_of_not_idle h _)
  | getColor idx => exact congrArg _ (singleStep_of_not_idle h _)
  | getBrightness => exact congrArg _ (singleStep_of_not_idle h _)

theorem multiStep_of_idle {s : State} (h : s.ctl = .idle) (m : Mode) (body : State → State) :
    s.multiStep m body = s.start m := by
  simp [State.multiStep, h]

theorem multiStep_of_exec {s : State} (h : s.ctl = .exec) (body : State → State) : s.multiStep s.mode body = body s := by
  simp [State.multiStep, h]

theorem multiStep_of_wait {s : State} (h : s.ctl = .wait) (body : State → State) : s.multiStep s.mode body = s.consume := by
  simp [State.multiStep, h]

/-- A multi-step command that is neither accepted nor running leaves the state. -/
theorem multiStep_of_not_running {s : State} {m : Mode} (h : s.ctl ≠ .idle) (hm : s.mode ≠ m ∨ s.ctl = .delay ∨ s.ctl = .halted)
    (body : State → State) : s.multiStep m body = s := by
  rcases multiStep_cases s m body with ⟨hc, -⟩ | ⟨hc, heq, -⟩ | ⟨hc, heq, -⟩ | ⟨-, he⟩
  · exact absurd hc h
  · simp [hc, heq] at hm
  · simp [hc, heq] at hm
  · exact he

/-- In WAIT with `DONE = 0` every multi-step command leaves the state: the running one polls, the others are not running. -/
theorem multiStep_of_waiting {s : State} (h : s.Waiting) (m : Mode) (body : State → State) : s.multiStep m body = s := by
  obtain ⟨hw, hd⟩ := h
  by_cases hm : s.mode = m
  · rw [← hm, multiStep_of_wait hw, consume_of_not_done hd]
  · exact multiStep_of_not_running (by simp [hw]) (.inl hm) body

theorem exec_setColor_of_lt {s : State} {idx : LedIndex} (h : s.ctl = .idle) (hi : idx.toNat < s.numLeds) (r g b : Byte) :
    exec (.setColor idx r g b) s = .next ((s.writeColor idx.toNat ⟨r, g, b⟩).respond .ok 0) := by
  simp [exec, execSetColor, singleStep_of_idle h, (validIndex_eq_true_iff s idx).2 hi]

theorem exec_setColor_of_le {s : State} {idx : LedIndex} (h : s.ctl = .idle) (hi : s.numLeds ≤ idx.toNat) (r g b : Byte) :
    exec (.setColor idx r g b) s = .next (s.respond .outOfRange 0) := by
  simp [exec, execSetColor, singleStep_of_idle h, (validIndex_eq_false_iff s idx).2 hi]

theorem exec_setBrightness {s : State} (h : s.ctl = .idle) (lvl : Byte) :
    exec (.setBrightness lvl) s = .next ((s.writeBrightness lvl).respond .ok 0) := by
  simp [exec, execSetBrightness, singleStep_of_idle h]

theorem exec_getColor_of_getElem? {s : State} {idx : LedIndex} {led : Led} (h : s.ctl = .idle)
    (hl : s.leds[idx.toNat]? = some led) : exec (.getColor idx) s = .next (s.respond .ok led.data) := by
  simp [exec, execGetColor, singleStep_of_idle h, hl]

/-- NOP, GET_COLOR and GET_BRIGHTNESS respond in IDLE and do nothing else, and outside IDLE they leave the state. -/
theorem exec_of_query (s : State) {i : Instr} (h : i = .nop ∨ i = .getBrightness ∨ ∃ idx, i = .getColor idx) :
    exec i s = .next s ∨ ∃ st d, exec i s = .next (s.respond st d) := by
  by_cases hi : s.ctl = .idle
  · rcases h with rfl | rfl | ⟨idx, rfl⟩
    · exact .inr ⟨.ok, 0, congrArg _ (singleStep_of_idle hi _)⟩
    · exact .inr ⟨.ok, s.brightnessData, congrArg _ (singleStep_of_idle hi _)⟩
    · cases hl : s.leds[idx.toNat]? with
      | some led => exact .inr ⟨.ok, led.data, exec_getColor_of_getElem? hi hl⟩
      | none => exact .inr ⟨.outOfRange, 0, by simp [exec, execGetColor, singleStep_of_idle hi, hl]⟩
  · rcases h with rfl | rfl | ⟨idx, rfl⟩ <;> exact .inl (exec_of_not_idle hi nofun nofun nofun)

theorem consume_of_done_send {s : State} (hd : s.done = true) (hm : s.mode = .send) :
    s.consume = (s.clearDone.respond .ok 0).goto .idle := by
  simp [State.consume, hd, hm]

theorem consume_of_done_fade {s : State} (hd : s.done = true) (hm : s.mode ≠ .send) : s.consume = s.clearDone.goto .delay := by
  unfold State.consume
  rw [if_pos hd]
  cases h : s.mode with
  | send => exact absurd h hm
  | fadeStep => rfl
  | fadeRun => rfl

theorem fadeIteration_of_fault {s : State} (h : (advanceAll s.cfg.fadeStep s.leds).2 = true) :
    s.fadeIteration = State.raiseFault { s with leds := (advanceAll s.cfg.fadeStep s.leds).1 } .internalState :=
  if_pos h

theorem fadeIteration_of_no_fault {s : State} (h : (advanceAll s.cfg.fadeStep s.leds).2 = false) :
    s.fadeIteration = State.sendFrame { s with leds := (advanceAll s.cfg.fadeStep s.leds).1 } :=
  if_neg (Bool.eq_false_iff.1 h)

theorem runTop_of_cancel {s : State} (h : s.cancel = true) : s.runTop = (s.respond .ok s.iterData).goto .idle := if_pos h

theorem runTop_of_no_cancel {s : State} (h : s.cancel = false) : s.runTop = s.fadeIteration := if_neg (Bool.eq_false_iff.1 h)

/-! ### The equations of the events (R179-R181) -/

theorem completionEvent_of_halted {s : State} (h : s.ctl = .halted) : s.completionEvent = { s with outstanding := false } :=
  if_pos h

theorem completionEvent_of_waiting {s : State} (h : s.Waiting) :
    s.completionEvent = { s with outstanding := false, done := true } := by
  obtain ⟨hw, hd⟩ := h
  simp [State.completionEvent, State.raiseDone, hw, hd]

theorem completionEvent_of_late {s : State} (hh : s.ctl ≠ .halted) (hw : ¬s.Waiting) (hp : s.pendingLate = true) :
    s.completionEvent = { s with outstanding := false, pendingLateBit := false } := by
  simp only [State.completionEvent]
  rw [if_neg hh, if_neg hw, if_pos hp]
  rfl

theorem completionEvent_of_spurious {s : State} (hh : s.ctl ≠ .halted) (hw : ¬s.Waiting) (hp : s.pendingLate = false) :
    s.completionEvent = { s with outstanding := false, faultCode := 2, ctl := .halted } := by
  simp only [State.completionEvent]
  rw [if_neg hh, if_neg hw, if_neg (Bool.eq_false_iff.1 hp)]
  rfl

theorem delayEndEvent_of_fadeStep {s : State} (h : s.ctl = .delay) (hm : s.mode = .fadeStep) :
    s.delayEndEvent = (s.respond .ok 0).goto .idle := by
  simp [State.delayEndEvent, State.delayEnabled, h, hm]

theorem delayEndEvent_of_fadeRun {s : State} (h : s.ctl = .delay) (hm : s.mode = .fadeRun) :
    s.delayEndEvent = State.goto { s with iter := s.iter + 1 } .exec := by
  simp [State.delayEndEvent, State.delayEnabled, h, hm]

theorem delayEndEvent_of_not_fading {s : State} (h : s.ctl = .delay → s.mode = .send) : s.delayEndEvent = s := by
  rcases delayEndEvent_cases s with ⟨hc, hm, -⟩ | ⟨hc, hm, -⟩ | ⟨-, he⟩
  · simp [h hc] at hm
  · simp [h hc] at hm
  · exact he

theorem timeoutEvent_of_waiting {s : State} (ht : s.cfg.hasTimeout = true) (h : s.Waiting) : s.timeoutEvent =
    ((s.writePendingLate true).respond .transportTimeout (if s.mode = .fadeRun then s.iterData else 0)).goto .idle := by
  rcases timeoutEvent_cases s with ⟨-, -, -, he⟩ | ⟨hno, -⟩
  · exact he
  · exact absurd ⟨ht, h⟩ hno

theorem timeoutEvent_of_not_enabled {s : State} (h : ¬(s.cfg.hasTimeout = true ∧ s.Waiting)) : s.timeoutEvent = s := by
  rcases timeoutEvent_cases s with ⟨ht, hw, hd, -⟩ | ⟨-, he⟩
  · exact absurd ⟨ht, hw, hd⟩ h
  · exact he

/-! ### OK responses on plain numbers (R80, R81) -/

/-- An OK response word is its data as a number, since the status OK is 0 (R80, R170). -/
theorem responseWord_ok (d : Data) : responseWord .ok d = BitVec.ofNat 64 d.toNat := by
  apply BitVec.eq_of_toNat_eq
  rw [responseWord_toNat, BitVec.toNat_ofNat]
  have hd := d.isLt
  have hcode : Status.ok.code.toNat = 0 := rfl
  omega

/-- The data of GET_COLOR on numbers: level, red, green, blue from bit 24 down (R81). -/
theorem ledData_toNat (led : Led) : led.data.toNat =
    led.level.toNat * 2 ^ 24 + led.color.r.toNat * 2 ^ 16 + led.color.g.toNat * 2 ^ 8 + led.color.b.toNat := by
  have hr := led.color.r.isLt
  have hg := led.color.g.isLt
  have hb := led.color.b.isLt
  have hl := led.level.isLt
  simp only [Led.data, BitVec.toNat_setWidth, BitVec.toNat_append]
  rw [← Nat.shiftLeft_add_eq_or_of_lt hb, ← Nat.shiftLeft_add_eq_or_of_lt hg, ← Nat.shiftLeft_add_eq_or_of_lt hr]
  simp only [Nat.shiftLeft_eq]
  omega

/-- The data of FADE_RUN on numbers (R81). -/
theorem iterData_toNat (s : State) : s.iterData.toNat = s.iter.toNat := by
  have hi := s.iter.isLt
  simp only [State.iterData, BitVec.toNat_setWidth]
  omega

/-! ### The invariant (R25-R28, R31, R61, R179) -/

/-- The invariant's clauses on the parameters, the LEDs and PB hold wherever those elements are kept, whatever the control does. -/
theorem inv_of_store_eq {s t : State} (hinv : s.Inv) (hcfg : t.cfg = s.cfg) (hleds : t.leds = s.leds) (hpb : t.pb = s.pb)
    (hflags : t.FlagsOk) (htransport : t.TransportOk) (hcontrol : t.ControlOk) : t.Inv := by
  obtain ⟨hparams, hlevels, hbuffer, -⟩ := hinv
  refine ⟨?_, ?_, ?_, hflags, htransport, hcontrol⟩
  · simpa only [State.ParamsOk, State.numLeds, hcfg, hleds] using hparams
  · simpa only [State.LevelsOk, hleds] using hlevels
  · simpa only [State.BufferOk, State.numLeds, hcfg, hleds, hpb] using hbuffer

/-- R27: `DONE = 0` outside WAIT and HALTED. -/
theorem done_eq_false_of_inv {s : State} (hinv : s.Inv) (hw : s.ctl ≠ .wait) (hh : s.ctl ≠ .halted) : s.done = false := by
  obtain ⟨-, -, -, ⟨hdone, -⟩, -⟩ := hinv
  exact Bool.eq_false_iff.2 fun hd => (hdone hd).elim hw hh

/-- R28: `PENDING_LATE = 0` outside IDLE. -/
theorem pendingLateBit_eq_false_of_inv {s : State} (hinv : s.Inv) (hc : s.ctl ≠ .idle) : s.pendingLateBit = false := by
  obtain ⟨-, -, -, ⟨-, hlate⟩, -⟩ := hinv
  exact Bool.eq_false_iff.2 fun hp => hc (hlate hp).2

/-- R28: the stored bit is what PENDING_LATE reads. -/
theorem pendingLate_eq_pendingLateBit {s : State} (hinv : s.Inv) : s.pendingLate = s.pendingLateBit := by
  obtain ⟨-, -, -, ⟨-, hlate⟩, -⟩ := hinv
  cases hp : s.pendingLateBit
  · exact (pendingLate_eq_false_iff s).2 (.inr hp)
  · exact (pendingLate_eq_true_iff s).2 ⟨(hlate hp).1, hp⟩

/-- R179: nothing is outstanding where the core does not wait and no late completion is owed. -/
theorem outstanding_eq_false_of_inv {s : State} (hinv : s.Inv) (hw : ¬(s.ctl = .wait ∧ s.done = false))
    (hp : s.pendingLateBit = false) : s.outstanding = false := by
  obtain ⟨-, -, -, -, ⟨hout, -⟩, -⟩ := hinv
  exact Bool.eq_false_iff.2 fun ho => (hout.1 ho).elim hw (by simp [hp])

/-- R31: FAULT_CODE is 0 outside HALTED. -/
theorem faultCode_eq_zero_of_inv {s : State} (hinv : s.Inv) (hh : s.ctl ≠ .halted) : s.faultCode = 0 := by
  obtain ⟨-, -, -, -, -, -, hfault, -⟩ := hinv
  exact not_not.1 fun hne => hh (hfault.1 hne)

/-- R25, R143: under the invariant no advance meets an illegal level. -/
theorem advanceAll_of_inv {s : State} (hinv : s.Inv) : (advanceAll s.cfg.fadeStep s.leds).2 = false := by
  obtain ⟨-, hlevels, -⟩ := hinv
  exact (advanceAll_of_legal hlevels).1

/-- The invariant holds after reset with legal parameters (R200). -/
theorem inv_resetWith {c : Config} {pb : List Nat} {mode : Mode} (hc : c.Legal) (hlen : pb.length = 24 * c.N + c.latchLen)
    (hwidth : ∀ e ∈ pb, e < 2 ^ c.dutyWidth) : (State.resetWith c pb mode).Inv := by
  have hnum : (State.resetWith c pb mode).numLeds = c.N := List.length_map _
  refine ⟨⟨hc, hnum⟩, ?_, ⟨hlen.trans (by rw [hnum]; rfl), hwidth⟩, ⟨nofun, nofun⟩,
    ⟨by simp [State.resetWith], nofun⟩, by simp [State.ControlOk, State.resetWith]⟩
  intro led hled
  obtain ⟨col, -, rfl⟩ := List.mem_map.1 hled
  exact (by decide : (0 : Level) ≠ 3)

/-- R26: PB after a reset move has its length. -/
theorem freePulseBuffer_length (s : State) : s.freePulseBuffer.length = 24 * s.cfg.N + s.cfg.latchLen := by
  simp [State.freePulseBuffer]

/-- R26: PB after a reset move has entries of DUTY_WIDTH bits. -/
theorem freePulseBuffer_lt (s : State) : ∀ e ∈ s.freePulseBuffer, e < 2 ^ s.cfg.dutyWidth := by
  intro e he
  obtain ⟨k, -, rfl⟩ := List.mem_map.1 he
  exact Nat.mod_lt _ (Nat.two_pow_pos _)

/-- A reset leads into the invariant from every state with legal parameters; what stands of the record says nothing (R201). -/
theorem inv_platformReset {s : State} (hc : s.cfg.Legal) : s.platformReset.Inv := by
  have hreset := inv_resetWith (mode := Config.freeMode s.freeCtr) hc (freePulseBuffer_length s) (freePulseBuffer_lt s)
  refine inv_of_store_eq hreset rfl rfl rfl ⟨nofun, nofun⟩ ⟨?_, nofun⟩ ?_
  · simp [State.platformReset, State.resetWith]
  · simp [State.ControlOk, State.platformReset, State.resetWith]

/-- A colour write keeps the invariant: it changes no level and not the number of LEDs (R111). -/
theorem inv_writeColor {s : State} (hinv : s.Inv) (i : Nat) (c : Color) : (s.writeColor i c).Inv := by
  obtain ⟨⟨hlegal, hnum⟩, hlevels, ⟨hlen, hwidth⟩, hcontrol⟩ := hinv
  refine ⟨⟨hlegal, (writeColor_numLeds s i c).trans hnum⟩, ?_, ⟨?_, hwidth⟩, hcontrol⟩
  · intro led hled
    have hmem : led.level ∈ (s.writeColor i c).leds.map Led.level := List.mem_map_of_mem hled
    rw [writeColor_levels] at hmem
    obtain ⟨old, hold, heq⟩ := List.mem_map.1 hmem
    exact heq ▸ hlevels old hold
  · rw [writeColor_numLeds]
    exact hlen

/-- The acceptance of a multi-step command keeps the invariant: no late completion is owed (R85, R173). -/
theorem inv_start {s : State} (hinv : s.Inv) (hi : s.ctl = .idle) (hp : s.pendingLate = false) (m : Mode) (n : Counter) :
    State.Inv { s with mode := m, ctl := .exec, iter := n } := by
  have hdone := done_eq_false_of_inv hinv (by simp [hi]) (by simp [hi])
  have hlate : s.pendingLateBit = false := (pendingLate_eq_pendingLateBit hinv).symm.trans hp
  have hout := outstanding_eq_false_of_inv hinv (by simp [hi]) hlate
  have hfault := faultCode_eq_zero_of_inv hinv (by simp [hi])
  refine inv_of_store_eq hinv rfl rfl rfl ?_ ?_ ?_
  · simp [State.FlagsOk, hdone, hlate]
  · simp [State.TransportOk, hlate, hout]
  · simp [State.ControlOk, hfault]

/-- A frame send from EXEC keeps the invariant, whatever legal levels and colours the LEDs have by then (R109, R144). -/
theorem inv_sendFrame {s : State} (hinv : s.Inv) (he : s.ctl = .exec) {leds : List Led} (hnum : leds.length = s.numLeds)
    (hlevels : ∀ led ∈ leds, led.level ≠ 3) : (State.sendFrame { s with leds := leds }).Inv := by
  have hdone := done_eq_false_of_inv hinv (by simp [he]) (by simp [he])
  have hlate := pendingLateBit_eq_false_of_inv hinv (by simp [he])
  have hfault := faultCode_eq_zero_of_inv hinv (by simp [he])
  obtain ⟨⟨hlegal, hN⟩, -⟩ := hinv
  refine ⟨⟨hlegal, hnum.trans hN⟩, hlevels, ⟨?_, pulseSequence_entries_lt hlegal _ _⟩, ?_, ?_, ?_⟩
  · simp [State.sendFrame, State.numLeds, pulseSequence_length]
  · simp [State.FlagsOk, State.sendFrame, hdone, hlate]
  · simp [State.TransportOk, State.sendFrame, hdone]
  · simp [State.ControlOk, State.sendFrame, hfault]

/-- A step of a running command out of EXEC, WAIT or DELAY that leaves `DONE = 0` keeps the invariant: nothing is outstanding
before it, and it neither waits nor halts (R108, R146, R180). -/
theorem inv_leave {s : State} (hinv : s.Inv) (hfrom : s.ctl = .exec ∨ s.ctl = .delay ∨ s.ctl = .wait ∧ s.done = true)
    {c : Ctl} (hto : c = .idle ∨ c = .exec ∨ c = .delay ∧ s.mode ≠ .send) {d : Bool} (hd : d = false) (n : Counter)
    (out : List Word) : State.Inv { s with ctl := c, done := d, iter := n, responses := out } := by
  have hlate := pendingLateBit_eq_false_of_inv hinv (by rcases hfrom with h | h | ⟨h, -⟩ <;> simp [h])
  have hfault := faultCode_eq_zero_of_inv hinv (by rcases hfrom with h | h | ⟨h, -⟩ <;> simp [h])
  have hout := outstanding_eq_false_of_inv hinv (by rcases hfrom with h | h | ⟨-, h⟩ <;> simp [h]) hlate
  refine inv_of_store_eq hinv rfl rfl rfl ?_ ?_ ?_
  · simp [State.FlagsOk, hd, hlate]
  · rcases hto with rfl | rfl | ⟨rfl, -⟩ <;> simp [State.TransportOk, hlate, hout]
  · rcases hto with rfl | rfl | ⟨rfl, hm⟩ <;> simp [State.ControlOk, hfault]
    exact hm

/-- Whatever the core's step does, it keeps the invariant. -/
theorem inv_coreStep {s t : State} (hinv : s.Inv) (h : coreStep s = .next t) : t.Inv := by
  have hnofault := advanceAll_of_inv hinv
  have ⟨_, hlegal, _⟩ := hinv
  rcases coreStep_results h with ⟨-, rfl⟩ | ⟨w, rest, st, d, -, -, -, -, rfl⟩ | ⟨w, rest, idx, r, g, b, -, -, -, -, rfl⟩ |
    ⟨w, rest, lvl, -, -, -, rfl⟩ | ⟨w, rest, m, hi, -, hp, rfl⟩ | ⟨he, -, rfl⟩ | ⟨he, -, -, rfl⟩ | ⟨-, -, hf, -⟩ |
    ⟨he, -, -, rfl⟩ | ⟨hw, hd, -, rfl⟩ | ⟨hw, hd, hm, rfl⟩
  · exact hinv
  · exact hinv
  · exact inv_writeColor (s := { s with port := rest }) hinv idx.toNat ⟨r, g, b⟩
  · exact hinv
  · exact inv_start (s := { s with port := rest }) hinv hi hp m _
  · exact inv_sendFrame hinv he rfl hlegal
  · have hdone := done_eq_false_of_inv hinv (by simp [he]) (by simp [he])
    exact inv_leave hinv (.inl he) (.inl rfl) hdone _ _
  · simp [hnofault] at hf
  · exact inv_sendFrame hinv he (advanceAll_length _ _) (advanceAll_levels hlegal)
  · exact inv_leave hinv (.inr (.inr ⟨hw, hd⟩)) (.inl rfl) rfl _ _
  · exact inv_leave hinv (.inr (.inr ⟨hw, hd⟩)) (.inr (.inr ⟨rfl, hm⟩)) rfl _ _

/-- A completion keeps the invariant: owed to a wait or late, it is taken; not owed, it halts the block (R179). -/
theorem inv_completionEvent {s : State} (hinv : s.Inv) : s.completionEvent.Inv := by
  have ⟨_, _, _, hflags, _, hcontrol⟩ := hinv
  rcases completionEvent_cases s with ⟨hh, he⟩ | ⟨hw, -, he⟩ | ⟨-, hw, -, he⟩ | ⟨hh, hw, hp, he⟩ <;> rw [he]
  · have hlate := pendingLateBit_eq_false_of_inv hinv (by simp [hh])
    exact inv_of_store_eq hinv rfl rfl rfl hflags (by simp [State.TransportOk, hh, hlate]) hcontrol
  · have hlate := pendingLateBit_eq_false_of_inv hinv (by simp [hw])
    exact inv_of_store_eq hinv rfl rfl rfl (by simp [State.FlagsOk, hw, hlate]) (by simp [State.TransportOk, hlate]) hcontrol
  · exact inv_of_store_eq hinv rfl rfl rfl ⟨hflags.1, nofun⟩ (by simpa [State.TransportOk] using hw) hcontrol
  · have hlate := (pendingLate_eq_pendingLateBit hinv).symm.trans hp
    exact inv_of_store_eq hinv rfl rfl rfl (by simp [State.FlagsOk, hlate]) (by simp [State.TransportOk, hlate])
      (by simp [State.ControlOk])

/-- The end of the delay keeps the invariant (R180). -/
theorem inv_delayEndEvent {s : State} (hinv : s.Inv) : s.delayEndEvent.Inv := by
  rcases delayEndEvent_cases s with ⟨hc, -, he⟩ | ⟨hc, -, he⟩ | ⟨-, he⟩ <;> rw [he]
  · have hdone := done_eq_false_of_inv hinv (by simp [hc]) (by simp [hc])
    exact inv_leave hinv (.inr (.inl hc)) (.inl rfl) hdone _ _
  · have hdone := done_eq_false_of_inv hinv (by simp [hc]) (by simp [hc])
    exact inv_leave hinv (.inr (.inl hc)) (.inr (.inl rfl)) hdone _ _
  · exact hinv

/-- A timeout keeps the invariant: what was outstanding in the wait is owed late, and is still PB (R61, R181). -/
theorem inv_timeoutEvent {s : State} (hinv : s.Inv) : s.timeoutEvent.Inv := by
  rcases timeoutEvent_cases s with ⟨ht, hw, hd, he⟩ | ⟨-, he⟩ <;> rw [he]
  · have hfault := faultCode_eq_zero_of_inv hinv (by simp [hw])
    have ⟨_, _, _, _, ⟨hout, hflight⟩, _⟩ := hinv
    refine inv_of_store_eq hinv rfl rfl rfl ?_ ?_ ?_
    · simp [State.FlagsOk, ht, hd]
    · exact ⟨by simp [hout, hw, hd], hflight⟩
    · simp [State.ControlOk, hfault]
  · exact hinv

/-- Settles O44: each agent's move keeps the invariant. -/
theorem everyStepKeepsTheBlockConsistent : Obligations.EveryStepKeepsTheBlockConsistent := by
  intro s t hinv h
  have ⟨⟨hlegal, _⟩, _⟩ := hinv
  rcases step_cases h with ⟨-, hc⟩ | ⟨w, -, rfl⟩ | ⟨v, -, rfl⟩ | ⟨-, rfl⟩ | ⟨-, rfl⟩ | ⟨-, rfl⟩ | ⟨-, rfl⟩
  · exact inv_coreStep (s := s.popMove) hinv hc
  · exact hinv
  · exact hinv
  · exact inv_completionEvent (s := s.popMove) hinv
  · exact inv_delayEndEvent (s := s.popMove) hinv
  · exact inv_timeoutEvent (s := s.popMove) hinv
  · exact inv_platformReset (s := s.popMove) hlegal

/-- R25, R176: under the invariant the core's step does not halt the block: no fade meets an illegal level. -/
theorem coreStep_ctl_ne_halted {s t : State} (hinv : s.Inv) (hh : s.ctl ≠ .halted) (h : coreStep s = .next t) :
    t.ctl ≠ .halted := by
  have hnofault := advanceAll_of_inv hinv
  rcases coreStep_results h with ⟨-, rfl⟩ | ⟨w, rest, st, d, -, -, -, -, rfl⟩ | ⟨w, rest, idx, r, g, b, -, -, -, -, rfl⟩ |
    ⟨w, rest, lvl, -, -, -, rfl⟩ | ⟨w, rest, m, -, -, -, rfl⟩ | ⟨-, -, rfl⟩ | ⟨-, -, -, rfl⟩ | ⟨-, -, hf, -⟩ |
    ⟨-, -, -, rfl⟩ | ⟨-, -, -, rfl⟩ | ⟨-, -, -, rfl⟩
  · exact hh
  · exact hh
  · exact hh
  · exact hh
  · exact nofun
  · exact nofun
  · exact nofun
  · simp [hnofault] at hf
  · exact nofun
  · exact nofun
  · exact nofun

/-- R179, R187: under the invariant an owed completion is not spurious. -/
theorem completionEvent_ctl_ne_halted {s : State} (hinv : s.Inv) (hh : s.ctl ≠ .halted) (ho : s.outstanding = true) :
    s.completionEvent.ctl ≠ .halted := by
  rcases completionEvent_cases s with ⟨-, he⟩ | ⟨-, -, he⟩ | ⟨-, -, -, he⟩ | ⟨-, hw, hp, -⟩
  · rwa [he]
  · rwa [he]
  · rwa [he]
  · have hlate := (pendingLate_eq_pendingLateBit hinv).symm.trans hp
    simp [outstanding_eq_false_of_inv hinv hw hlate] at ho

theorem delayEndEvent_ctl_ne_halted {s : State} (hh : s.ctl ≠ .halted) : s.delayEndEvent.ctl ≠ .halted := by
  rcases delayEndEvent_cases s with ⟨-, -, he⟩ | ⟨-, -, he⟩ | ⟨-, he⟩ <;> rw [he]
  · exact nofun
  · exact nofun
  · exact hh

theorem timeoutEvent_ctl_ne_halted {s : State} (hh : s.ctl ≠ .halted) : s.timeoutEvent.ctl ≠ .halted := by
  rcases timeoutEvent_cases s with ⟨-, -, -, he⟩ | ⟨-, he⟩ <;> rw [he]
  · exact nofun
  · exact hh

/-- Settles O45: no move halts the block, and outside HALTED the invariant allows `DONE = 1` in WAIT only. -/
theorem honestTransportNeverHaltsTheBlock : Obligations.HonestTransportNeverHaltsTheBlock := by
  intro s t hinv hh hcontract h
  have hrun : t.ctl ≠ .halted := by
    rcases step_cases h with ⟨-, hc⟩ | ⟨w, -, rfl⟩ | ⟨v, -, rfl⟩ | ⟨hm, rfl⟩ | ⟨-, rfl⟩ | ⟨-, rfl⟩ | ⟨-, rfl⟩
    · exact coreStep_ctl_ne_halted (s := s.popMove) hinv hh hc
    · exact hh
    · exact hh
    · exact completionEvent_ctl_ne_halted (s := s.popMove) hinv hh (hcontract hm)
    · exact delayEndEvent_ctl_ne_halted (s := s.popMove) hh
    · exact timeoutEvent_ctl_ne_halted (s := s.popMove) hh
    · exact nofun
  obtain ⟨-, -, -, ⟨hdone, -⟩, -⟩ := everyStepKeepsTheBlockConsistent s t hinv h
  exact ⟨hrun, fun hd => (hdone hd).resolve_right hrun⟩

/-! ### The states after reset (R200, R201) -/

/-- Settles O43, from the states after reset with any legal parameters. -/
theorem resetStatesMeetTheInvariant : Obligations.ResetStatesMeetTheInvariant := by
  refine ⟨inv_resetWith (by decide) List.length_replicate fun e he => ?_, fun c pb mode => inv_resetWith⟩
  obtain ⟨-, rfl⟩ := List.mem_replicate.1 he
  decide

/-- Settles O41, element by element from the reset's definition. -/
theorem resetRestoresEveryElement : Obligations.ResetRestoresEveryElement := by
  intro s hm
  refine ⟨s.popMove.platformReset, by simp [step, hm, takeMove], rfl, rfl, rfl, rfl, rfl, rfl, rfl, rfl, rfl, ?_, ?_⟩
  · exact freePulseBuffer_length s.popMove
  · exact freePulseBuffer_lt s.popMove

/-! ### The step of the core (R29, R30, R85) -/

/-- Settles O7, from the equation of an acceptance. -/
theorem stepRunsTheDecodedCommand : Obligations.StepRunsTheDecodedCommand := by
  rintro s w i ⟨hi, hhead, hm⟩ hd
  obtain ⟨rest, hp⟩ := List.head?_eq_some_iff.1 hhead
  rw [step_of_core hm, coreStep_of_command (s := s.popMove) hi hp hd, hp]
  rfl

/-- Settles O8, MODE by MODE. -/
theorem stepContinuesTheRunningCommand : Obligations.StepContinuesTheRunningCommand := by
  intro s hm h
  rw [step_of_core hm, coreStep_of_running (s := s.popMove) h]
  exact congrArg (exec · s.popMove) (by rw [popMove_mode]; cases s.mode <;> rfl)

/-- R29, R177, R190: the core has no step in DELAY and in HALTED, while it waits, and with nothing to accept. -/
theorem coreStep_of_no_step {s : State}
    (h : s.ctl = .delay ∨ s.ctl = .halted ∨ s.Waiting ∨ (s.ctl = .idle ∧ s.port = [])) : coreStep s = .next s := by
  rcases h with h | h | h | ⟨h, hp⟩
  · simp [coreStep, h]
  · simp [coreStep, h]
  · exact coreStep_of_waiting h
  · simp [coreStep, h, hp]

/-- Settles O10. -/
theorem coreWithNoStepChangesNothing : Obligations.CoreWithNoStepChangesNothing := by
  intro s hm h
  rw [step_of_core hm, coreStep_of_no_step (s := s.popMove) h]
  rfl

/-- R29: outside IDLE the core takes no word from the port. -/
theorem coreStep_port {s t : State} (hi : s.ctl ≠ .idle) (h : coreStep s = .next t) : t.port = s.port := by
  rcases coreStep_results h with ⟨-, rfl⟩ | ⟨w, rest, st, d, hc, -, -, -, -⟩ | ⟨w, rest, idx, r, g, b, hc, -, -, -, -⟩ |
    ⟨w, rest, lvl, hc, -, -, -⟩ | ⟨w, rest, m, hc, -, -, -⟩ | ⟨-, -, rfl⟩ | ⟨-, -, -, rfl⟩ | ⟨-, -, -, rfl⟩ |
    ⟨-, -, -, rfl⟩ | ⟨-, -, -, rfl⟩ | ⟨-, -, -, rfl⟩
  · rfl
  · exact absurd hc hi
  · exact absurd hc hi
  · exact absurd hc hi
  · exact absurd hc hi
  · rfl
  · rfl
  · rfl
  · rfl
  · rfl
  · rfl

@[simp] theorem completionEvent_port (s : State) : s.completionEvent.port = s.port := by
  rw [completionEvent_frame]
@[simp] theorem delayEndEvent_port (s : State) : s.delayEndEvent.port = s.port := by
  rw [delayEndEvent_frame]
@[simp] theorem timeoutEvent_port (s : State) : s.timeoutEvent.port = s.port := by
  rw [timeoutEvent_frame]
@[simp] theorem platformReset_port (s : State) : s.platformReset.port = s.port := rfl

/-- R29: outside IDLE only the host's offer writes the port. -/
theorem step_port {s t : State} (hi : s.ctl ≠ .idle) (h : step s = .next t) :
    t.port = s.port ∨ ∃ w, s.nextMove = .offer w ∧ t.port = s.port ++ [w] := by
  rcases step_cases h with ⟨-, hc⟩ | ⟨w, hm, rfl⟩ | ⟨v, -, rfl⟩ | ⟨-, rfl⟩ | ⟨-, rfl⟩ | ⟨-, rfl⟩ | ⟨-, rfl⟩
  · exact .inl (coreStep_port (s := s.popMove) hi hc)
  · exact .inr ⟨w, hm, rfl⟩
  · exact .inl rfl
  · exact .inl (by simp)
  · exact .inl (by simp)
  · exact .inl (by simp)
  · exact .inl (by simp)

/-- A command that is not running leaves the state outside IDLE (notes/assumptions/8.md). -/
theorem exec_of_not_running {s : State} {i : Instr} (hi : s.ctl ≠ .idle)
    (h : i ≠ runningCommand s.mode ∨ s.ctl = .delay ∨ s.ctl = .halted) : exec i s = .next s := by
  have multi : ∀ {m : Mode} {body : State → State}, i = runningCommand m → s.multiStep m body = s := by
    rintro m body rfl
    exact multiStep_of_not_running hi (h.imp_left fun hne heq => hne (heq ▸ rfl)) body
  cases i with
  | send => exact congrArg _ (multi rfl)
  | fadeStep => exact congrArg _ (multi rfl)
  | fadeRun => exact congrArg _ (multi rfl)
  | nop => exact exec_of_not_idle hi nofun nofun nofun
  | setColor idx r g b => exact exec_of_not_idle hi nofun nofun nofun
  | setBrightness lvl => exact exec_of_not_idle hi nofun nofun nofun
  | getColor idx => exact exec_of_not_idle hi nofun nofun nofun
  | getBrightness => exact exec_of_not_idle hi nofun nofun nofun

/-- Settles O9, from who writes the port and from the commands that are not running. -/
theorem portHoldsCommandsOutsideIdle : Obligations.PortHoldsCommandsOutsideIdle := by
  refine ⟨fun s t => step_port, fun s i => exec_of_not_idle, fun s i h => ?_, fun s h => ?_⟩
  · exact exec_of_not_running (by rcases h with h | h <;> simp [h]) (.inr h)
  · have hi : s.ctl ≠ .idle := by rcases h with h | h <;> simp [h]
    refine ⟨fun hm => exec_of_not_running hi (.inl ?_), fun hm => exec_of_not_running hi (.inl ?_),
      fun hm => exec_of_not_running hi (.inl ?_)⟩ <;> revert hm <;> cases s.mode <;> simp [runningCommand]

/-! ### The single-step commands (R110-R114) -/

/-- Settles O14. -/
theorem setBrightnessWritesBri : Obligations.SetBrightnessWritesBri := by
  intro s lvl h
  rw [exec_setBrightness h]
  rfl

/-- Settles O17: the colour stands at IDX after the write, no brightness write touches it, and the response is its data. -/
theorem readBackIsIndependentOfBrightness : Obligations.ReadBackIsIndependentOfBrightness := by
  intro s t u v idx r g b lvl hi hidx ht hu hv
  rw [exec_setColor_of_lt hi hidx] at ht
  have hti : t.ctl = .idle := by cases ht; exact hi
  rw [exec_setBrightness hti] at hu
  have hui : u.ctl = .idle := by cases hu; exact hti
  have hled : s.leds[idx.toNat]? = some (s.leds[idx.toNat]'hidx) := List.getElem?_eq_getElem hidx
  have hread : u.leds[idx.toNat]? = some ⟨⟨r, g, b⟩, (s.leds[idx.toNat]'hidx).level⟩ := by
    cases ht
    cases hu
    simp [hled]
  rw [exec_getColor_of_getElem? hui hread] at hv
  cases ht
  cases hu
  cases hv
  exact ⟨(s.leds[idx.toNat]'hidx).level, by simp [responseWord_ok, ledData_toNat]⟩

/-- Settles O18, command by command: in IDLE it is the command's own effect, elsewhere the state stands. -/
theorem singleStepCommandsLeaveTheRest : Obligations.SingleStepCommandsLeaveTheRest := by
  refine ⟨fun s t i hquery h => ?_, fun s t lvl h => ?_, fun s t idx r g b h => ?_⟩
  · rcases exec_of_query s hquery with he | ⟨st, d, he⟩ <;> rw [he] at h <;> cases h <;> rfl
  · by_cases hi : s.ctl = .idle
    · rw [exec_setBrightness hi] at h
      cases h
      rfl
    · rw [exec_of_not_idle (i := .setBrightness lvl) hi nofun nofun nofun] at h
      cases h
      rfl
  · by_cases hi : s.ctl = .idle
    · rcases Nat.lt_or_ge idx.toNat s.numLeds with hidx | hidx
      · rw [exec_setColor_of_lt hi hidx] at h
        cases h
        exact ⟨rfl, writeColor_levels s _ _, fun k hk => writeColor_other s _ hk⟩
      · rw [exec_setColor_of_le hi hidx] at h
        cases h
        exact ⟨rfl, rfl, fun _ _ => rfl⟩
    · rw [exec_of_not_idle (i := .setColor idx r g b) hi nofun nofun nofun] at h
      cases h
      exact ⟨rfl, rfl, fun _ _ => rfl⟩

/-! ### The multi-step commands (R85, R108, R146) -/

/-- Settles O19. -/
theorem multiStepCommandsEnterExec : Obligations.MultiStepCommandsEnterExec := by
  intro s hi hlate
  have hready := (pendingLate_eq_false_iff s).2 hlate
  simp [exec_send, exec_fadeStep, exec_fadeRun, multiStep_of_idle hi, start_of_ready hready]

/-- Settles O22, from the equations of the consume. -/
theorem consumeContinuesByMode : Obligations.ConsumeContinuesByMode := by
  intro s hw
  refine ⟨fun hd hm => ?_, fun hd hm => ?_, fun hd hm => ?_, fun hd => ⟨?_, ?_, ?_⟩⟩
  · rw [exec_send, ← hm, multiStep_of_wait hw, consume_of_done_send hd hm]
    rfl
  · rw [exec_fadeStep, ← hm, multiStep_of_wait hw, consume_of_done_fade hd (by simp [hm])]
    rfl
  · rw [exec_fadeRun, ← hm, multiStep_of_wait hw, consume_of_done_fade hd (by simp [hm])]
    rfl
  · exact congrArg _ (multiStep_of_waiting ⟨hw, hd⟩ _ _)
  · exact congrArg _ (multiStep_of_waiting ⟨hw, hd⟩ _ _)
  · exact congrArg _ (multiStep_of_waiting ⟨hw, hd⟩ _ _)

/-- Settles O25. -/
theorem cancelledFadeRunAnswersIter : Obligations.CancelledFadeRunAnswersIter := by
  intro s hc hm hcancel
  have hword : responseWord .ok s.iterData = BitVec.ofNat 64 s.iter.toNat := by rw [responseWord_ok, iterData_toNat]
  rw [exec_fadeRun, ← hm, multiStep_of_exec hc, runTop_of_cancel hcancel, ← hword]
  rfl

/-- R85: an acceptance writes MODE, CTL and the responses, and for FADE_RUN also ITER. -/
theorem start_frame (s : State) (m : Mode) :
    s.start m =
      { s with
        mode := (s.start m).mode
        ctl := (s.start m).ctl
        responses := (s.start m).responses
        iter := if m = .fadeRun then (s.start m).iter else s.iter } := by
  cases hp : s.pendingLate
  · rw [start_of_ready hp]
    cases m <;> rfl
  · rw [start_of_busy hp]
    cases m <;> rfl

/-- R108: a consume writes DONE, CTL and the responses. -/
theorem consume_frame (s : State) :
    s.consume = { s with done := s.consume.done, ctl := s.consume.ctl, responses := s.consume.responses } := by
  rcases consume_cases s with ⟨-, h⟩ | ⟨-, -, h⟩ | ⟨-, -, h⟩ <;> rw [h] <;> rfl

/-- R144: a fade iteration writes the LEDs and what a frame send or a fault writes. -/
theorem fadeIteration_frame (s : State) :
    s.fadeIteration =
      { s with
        leds := s.fadeIteration.leds
        pb := s.fadeIteration.pb
        ctl := s.fadeIteration.ctl
        outstanding := s.fadeIteration.outstanding
        submissions := s.fadeIteration.submissions
        faultCode := s.fadeIteration.faultCode } := by
  rcases fadeIteration_cases s with ⟨-, h⟩ | ⟨-, h⟩ <;> rw [h] <;> rfl

/-- R146: the top of a FADE_RUN writes what a fade iteration writes, or answers and ends. -/
theorem runTop_frame (s : State) :
    s.runTop =
      { s with
        leds := s.runTop.leds
        pb := s.runTop.pb
        ctl := s.runTop.ctl
        responses := s.runTop.responses
        outstanding := s.runTop.outstanding
        submissions := s.runTop.submissions
        faultCode := s.runTop.faultCode } := by
  by_cases h : s.cancel = true
  · rw [runTop_of_cancel h]
    rfl
  · rw [runTop_of_no_cancel (Bool.eq_false_iff.2 h), fadeIteration_frame]

/-- Outside EXEC a multi-step command writes what an acceptance or a consume writes. -/
theorem multiStep_frame_of_not_exec {s : State} (h : s.ctl ≠ .exec) (m : Mode) (body : State → State) :
    s.multiStep m body =
      { s with
        done := (s.multiStep m body).done
        ctl := (s.multiStep m body).ctl
        mode := (s.multiStep m body).mode
        responses := (s.multiStep m body).responses
        iter := if m = .fadeRun then (s.multiStep m body).iter else s.iter } := by
  rcases multiStep_cases s m body with ⟨-, he⟩ | ⟨hc, -⟩ | ⟨-, -, he⟩ | ⟨-, he⟩
  · rw [he, start_frame]
    cases m <;> rfl
  · exact absurd hc h
  · rw [he, consume_frame]
    cases m <;> rfl
  · rw [he]
    cases m <;> rfl

/-- In EXEC a multi-step command takes its body's step, or is not the running command. -/
theorem multiStep_eq_or_of_exec {s : State} (h : s.ctl = .exec) (m : Mode) (body : State → State) :
    s.multiStep m body = body s ∨ s.multiStep m body = s := by
  by_cases hm : s.mode = m
  · exact .inl (hm ▸ multiStep_of_exec h body)
  · exact .inr (multiStep_of_not_running (by simp [h]) (.inl hm) body)

/-- Settles O26: in EXEC it is the frame of the command's body, elsewhere the frame of an acceptance or a consume. -/
theorem multiStepCommandsLeaveTheRest : Obligations.MultiStepCommandsLeaveTheRest := by
  refine ⟨fun s t h => ?_, fun s t h => ?_, fun s t h => ?_, fun s t i hi hc h => ?_⟩
  · obtain rfl := Host.Outcome.next.inj h
    by_cases hc : s.ctl = .exec
    · rcases multiStep_eq_or_of_exec hc .send State.sendFrame with he | he <;> rw [he]
      rfl
    · rw [multiStep_frame_of_not_exec hc]
      rfl
  · obtain rfl := Host.Outcome.next.inj h
    by_cases hc : s.ctl = .exec
    · rcases multiStep_eq_or_of_exec hc .fadeStep State.fadeIteration with he | he <;> rw [he]
      rw [fadeIteration_frame]
    · rw [multiStep_frame_of_not_exec hc]
      rfl
  · obtain rfl := Host.Outcome.next.inj h
    by_cases hc : s.ctl = .exec
    · rcases multiStep_eq_or_of_exec hc .fadeRun State.runTop with he | he <;> rw [he]
      rw [runTop_frame]
    · rw [multiStep_frame_of_not_exec hc]
  · rcases hi with rfl | rfl | rfl <;> obtain rfl := Host.Outcome.next.inj h <;> rw [multiStep_frame_of_not_exec hc] <;>
      exact ⟨rfl, rfl, rfl, rfl, rfl⟩

/-! ### HALTED (R177, R184) -/

/-- Settles O40: in HALTED the core has no step, no timer runs and a completion clears OUTSTANDING only. -/
theorem haltedIsLeftByResetOnly : Obligations.HaltedIsLeftByResetOnly := by
  intro s t hh h
  have hport := step_port (by simp [hh]) h
  refine ⟨fun hm => ⟨?_, hport⟩, fun hm => ?_⟩
  · rcases step_cases h with ⟨-, hc⟩ | ⟨w, -, rfl⟩ | ⟨v, -, rfl⟩ | ⟨-, rfl⟩ | ⟨-, rfl⟩ | ⟨-, rfl⟩ | ⟨hreset, -⟩
    · rw [coreStep_of_no_step (s := s.popMove) (.inr (.inl hh))] at hc
      cases hc
      rfl
    · rfl
    · rfl
    · rw [completionEvent_of_halted (s := s.popMove) hh]
      rfl
    · rw [delayEndEvent_of_not_delay (s := s.popMove) (by simp [hh])]
      rfl
    · rw [timeoutEvent_of_not_enabled (s := s.popMove) (by simp [hh])]
      rfl
    · exact absurd hreset hm
  · simp only [step, hm, takeMove] at h
    cases h
    exact ⟨rfl, rfl⟩

/-! ### Who writes BRI and the LEDs (R22, R23, R25) -/

@[simp] theorem completionEvent_bri (s : State) : s.completionEvent.bri = s.bri := by
  rw [completionEvent_frame]
@[simp] theorem delayEndEvent_bri (s : State) : s.delayEndEvent.bri = s.bri := by
  rw [delayEndEvent_frame]
@[simp] theorem timeoutEvent_bri (s : State) : s.timeoutEvent.bri = s.bri := by
  rw [timeoutEvent_frame]

@[simp] theorem completionEvent_leds (s : State) : s.completionEvent.leds = s.leds := by
  rw [completionEvent_frame]
@[simp] theorem delayEndEvent_leds (s : State) : s.delayEndEvent.leds = s.leds := by
  rw [delayEndEvent_frame]
@[simp] theorem timeoutEvent_leds (s : State) : s.timeoutEvent.leds = s.leds := by
  rw [timeoutEvent_frame]

/-- R23: the core writes BRI only where it accepts a SET_BRIGHTNESS of that value. -/
theorem coreStep_bri {s t : State} (h : coreStep s = .next t) :
    t.bri = s.bri ∨
    ∃ w rest, s.ctl = .idle ∧ s.port = w :: rest ∧ decode w = .command (.setBrightness t.bri) := by
  rcases coreStep_results h with ⟨-, rfl⟩ | ⟨w, rest, st, d, -, -, -, -, rfl⟩ | ⟨w, rest, idx, r, g, b, -, -, -, -, rfl⟩ |
    ⟨w, rest, lvl, hi, hp, hd, rfl⟩ | ⟨w, rest, m, -, -, -, rfl⟩ | ⟨-, -, rfl⟩ | ⟨-, -, -, rfl⟩ | ⟨-, -, -, rfl⟩ |
    ⟨-, -, -, rfl⟩ | ⟨-, -, -, rfl⟩ | ⟨-, -, -, rfl⟩
  · exact .inl rfl
  · exact .inl rfl
  · exact .inl rfl
  · exact .inr ⟨w, rest, hi, hp, hd⟩
  · exact .inl rfl
  · exact .inl rfl
  · exact .inl rfl
  · exact .inl rfl
  · exact .inl rfl
  · exact .inl rfl
  · exact .inl rfl

/-- Settles O48: of all agents only the core and a reset write BRI. -/
theorem brightnessHasOneWriter : Obligations.BrightnessHasOneWriter := by
  intro s t h hne
  rcases step_cases h with ⟨hm, hc⟩ | ⟨w, -, rfl⟩ | ⟨v, -, rfl⟩ | ⟨-, rfl⟩ | ⟨-, rfl⟩ | ⟨-, rfl⟩ | ⟨hm, -⟩
  · rcases coreStep_bri hc with heq | ⟨w, rest, hi, hp, hd⟩
    · exact absurd heq hne
    · exact .inr ⟨w, acceptsNext_of_port hm hi hp, hd⟩
  · exact absurd rfl hne
  · exact absurd rfl hne
  · simp at hne
  · simp at hne
  · simp at hne
  · exact .inl hm

/-- R22, R25: the core writes the LEDs only where it runs a fade from EXEC or accepts a SET_COLOR, which keeps the levels. -/
theorem coreStep_leds {s t : State} (h : coreStep s = .next t) :
    t.leds = s.leds ∨
    (s.ctl = .exec ∧ (s.mode = .fadeStep ∨ s.mode = .fadeRun)) ∨
    ∃ w rest idx r g b, s.ctl = .idle ∧ s.port = w :: rest ∧ decode w = .command (.setColor idx r g b) ∧
      t.leds.map Led.level = s.leds.map Led.level := by
  rcases coreStep_results h with ⟨-, rfl⟩ | ⟨w, rest, st, d, -, -, -, -, rfl⟩ | ⟨w, rest, idx, r, g, b, hi, hp, hd, -, rfl⟩ |
    ⟨w, rest, lvl, -, -, -, rfl⟩ | ⟨w, rest, m, -, -, -, rfl⟩ | ⟨-, -, rfl⟩ | ⟨-, -, -, rfl⟩ | ⟨he, hm, -, -⟩ |
    ⟨he, hm, -, -⟩ | ⟨-, -, -, rfl⟩ | ⟨-, -, -, rfl⟩
  · exact .inl rfl
  · exact .inl rfl
  · exact .inr (.inr ⟨w, rest, idx, r, g, b, hi, hp, hd, writeColor_levels _ _ _⟩)
  · exact .inl rfl
  · exact .inl rfl
  · exact .inl rfl
  · exact .inl rfl
  · exact .inr (.inl ⟨he, hm.imp_right And.left⟩)
  · exact .inr (.inl ⟨he, hm.imp_right And.left⟩)
  · exact .inl rfl
  · exact .inl rfl

/-- Settles O49: of all agents only the core and a reset write the LEDs. -/
theorem colourStoreAndLevelWriters : Obligations.ColourStoreAndLevelWriters := by
  intro s t h hne
  rcases step_cases h with ⟨hm, hc⟩ | ⟨w, -, rfl⟩ | ⟨v, -, rfl⟩ | ⟨-, rfl⟩ | ⟨-, rfl⟩ | ⟨-, rfl⟩ | ⟨hm, -⟩
  · rcases coreStep_leds hc with heq | ⟨he, hmode⟩ | ⟨w, rest, idx, r, g, b, hi, hp, hd, hlevels⟩
    · exact absurd heq hne
    · exact .inr (.inl ⟨hm, he, hmode⟩)
    · exact .inr (.inr ⟨w, idx, r, g, b, acceptsNext_of_port hm hi hp, hd, hlevels⟩)
  · exact absurd rfl hne
  · exact absurd rfl hne
  · simp at hne
  · simp at hne
  · simp at hne
  · exact .inl hm

/-! ### The controller and the flags (R27-R29) -/

@[simp] theorem delayEndEvent_done (s : State) : s.delayEndEvent.done = s.done := by
  rw [delayEndEvent_frame]
@[simp] theorem delayEndEvent_pendingLateBit (s : State) : s.delayEndEvent.pendingLateBit = s.pendingLateBit := by
  rw [delayEndEvent_frame]
@[simp] theorem timeoutEvent_done (s : State) : s.timeoutEvent.done = s.done := by
  rw [timeoutEvent_frame]

@[simp] theorem platformReset_done (s : State) : s.platformReset.done = false := rfl
@[simp] theorem platformReset_pendingLateBit (s : State) : s.platformReset.pendingLateBit = false := rfl

/-- R29: how the core's step leaves and enters the controller state. -/
theorem coreStep_ctl {s t : State} (h : coreStep s = .next t) :
    t.ctl = s.ctl ∨
    (s.ctl = .idle ∧ t.ctl = .exec) ∨
    (s.ctl = .exec ∧ t.ctl = .idle ∧ s.mode = .fadeRun ∧ s.cancel = true) ∨
    (s.ctl = .exec ∧ t.ctl = .wait ∧ t.outstanding = true) ∨
    (s.ctl = .exec ∧ t.ctl = .halted ∧ t.faultCode = 1) ∨
    (s.ctl = .wait ∧ s.done = true ∧ t.ctl = .idle ∧ s.mode = .send) ∨
    (s.ctl = .wait ∧ s.done = true ∧ t.ctl = .delay ∧ s.mode ≠ .send) := by
  rcases coreStep_results h with ⟨-, rfl⟩ | ⟨w, rest, st, d, -, -, -, -, rfl⟩ | ⟨w, rest, idx, r, g, b, -, -, -, -, rfl⟩ |
    ⟨w, rest, lvl, -, -, -, rfl⟩ | ⟨w, rest, m, hi, -, -, rfl⟩ | ⟨he, -, rfl⟩ | ⟨he, hm, hcancel, rfl⟩ | ⟨he, -, -, rfl⟩ |
    ⟨he, -, -, rfl⟩ | ⟨hw, hd, hm, rfl⟩ | ⟨hw, hd, hm, rfl⟩
  · exact .inl rfl
  · exact .inl rfl
  · exact .inl rfl
  · exact .inl rfl
  · exact .inr (.inl ⟨hi, rfl⟩)
  · exact .inr (.inr (.inr (.inl ⟨he, rfl, rfl⟩)))
  · exact .inr (.inr (.inl ⟨he, rfl, hm, hcancel⟩))
  · exact .inr (.inr (.inr (.inr (.inl ⟨he, rfl, rfl⟩))))
  · exact .inr (.inr (.inr (.inl ⟨he, rfl, rfl⟩)))
  · exact .inr (.inr (.inr (.inr (.inr (.inl ⟨hw, hd, rfl, hm⟩)))))
  · exact .inr (.inr (.inr (.inr (.inr (.inr ⟨hw, hd, rfl, hm⟩)))))

/-- R179: a completion leaves the controller state, or halts the block as spurious. -/
theorem completionEvent_ctl (s : State) :
    s.completionEvent.ctl = s.ctl ∨
    (s.ctl ≠ .halted ∧ s.completionEvent.ctl = .halted ∧ s.completionEvent.faultCode = 2) := by
  rcases completionEvent_cases s with ⟨-, he⟩ | ⟨-, -, he⟩ | ⟨-, -, -, he⟩ | ⟨hh, -, -, he⟩ <;> rw [he]
  · exact .inl rfl
  · exact .inl rfl
  · exact .inl rfl
  · exact .inr ⟨hh, rfl, rfl⟩

/-- R180: a delay end leaves the controller state, or ends a FADE_STEP, or takes a FADE_RUN to its next top. -/
theorem delayEndEvent_ctl (s : State) :
    s.delayEndEvent.ctl = s.ctl ∨
    (s.ctl = .delay ∧ s.delayEndEvent.ctl = .idle ∧ s.mode = .fadeStep) ∨
    (s.ctl = .delay ∧ s.delayEndEvent.ctl = .exec ∧ s.mode = .fadeRun) := by
  rcases delayEndEvent_cases s with ⟨hc, hm, he⟩ | ⟨hc, hm, he⟩ | ⟨-, he⟩ <;> rw [he]
  · exact .inr (.inl ⟨hc, rfl, hm⟩)
  · exact .inr (.inr ⟨hc, rfl, hm⟩)
  · exact .inl rfl

/-- R181: a timeout leaves the controller state, or ends the wait. -/
theorem timeoutEvent_ctl (s : State) :
    s.timeoutEvent.ctl = s.ctl ∨
    (s.ctl = .wait ∧ s.done = false ∧ s.timeoutEvent.ctl = .idle ∧ s.cfg.hasTimeout = true) := by
  rcases timeoutEvent_cases s with ⟨ht, hw, hd, he⟩ | ⟨-, he⟩ <;> rw [he]
  · exact .inr ⟨hw, hd, rfl, ht⟩
  · exact .inl rfl

/-- Settles O54, agent by agent. -/
theorem controllerTransitions : Obligations.ControllerTransitions := by
  intro s t h hne
  rcases step_cases h with ⟨hm, hc⟩ | ⟨w, -, rfl⟩ | ⟨v, -, rfl⟩ | ⟨hm, rfl⟩ | ⟨hm, rfl⟩ | ⟨hm, rfl⟩ | ⟨hm, rfl⟩
  · obtain heq | htrans := coreStep_ctl hc
    · exact absurd heq hne
    · simp_all
  · exact absurd rfl hne
  · exact absurd rfl hne
  · obtain heq | htrans := completionEvent_ctl s.popMove
    · exact absurd heq hne
    · simp_all
  · obtain heq | htrans := delayEndEvent_ctl s.popMove
    · exact absurd heq hne
    · simp_all
  · obtain heq | htrans := timeoutEvent_ctl s.popMove
    · exact absurd heq hne
    · simp_all
  · exact .inl ⟨rfl, hm⟩

/-- R27, R28: the core never writes PENDING_LATE, and clears DONE at the consume only. -/
theorem coreStep_flags {s t : State} (h : coreStep s = .next t) :
    t.pendingLateBit = s.pendingLateBit ∧ (t.done = s.done ∨ (s.ctl = .wait ∧ s.done = true ∧ t.done = false)) := by
  rcases coreStep_results h with ⟨-, rfl⟩ | ⟨w, rest, st, d, -, -, -, -, rfl⟩ | ⟨w, rest, idx, r, g, b, -, -, -, -, rfl⟩ |
    ⟨w, rest, lvl, -, -, -, rfl⟩ | ⟨w, rest, m, -, -, -, rfl⟩ | ⟨-, -, rfl⟩ | ⟨-, -, -, rfl⟩ | ⟨-, -, -, rfl⟩ |
    ⟨-, -, -, rfl⟩ | ⟨hw, hd, -, rfl⟩ | ⟨hw, hd, -, rfl⟩
  · exact ⟨rfl, .inl rfl⟩
  · exact ⟨rfl, .inl rfl⟩
  · exact ⟨rfl, .inl rfl⟩
  · exact ⟨rfl, .inl rfl⟩
  · exact ⟨rfl, .inl rfl⟩
  · exact ⟨rfl, .inl rfl⟩
  · exact ⟨rfl, .inl rfl⟩
  · exact ⟨rfl, .inl rfl⟩
  · exact ⟨rfl, .inl rfl⟩
  · exact ⟨rfl, .inr ⟨hw, hd, rfl⟩⟩
  · exact ⟨rfl, .inr ⟨hw, hd, rfl⟩⟩

/-- R27, R28: a completion sets DONE in WAIT only and never clears it; it clears PENDING_LATE or keeps it. -/
theorem completionEvent_flags (s : State) :
    (s.completionEvent.done = s.done ∨ (s.ctl = .wait ∧ s.completionEvent.done = true)) ∧
    (s.completionEvent.pendingLateBit = s.pendingLateBit ∨ s.completionEvent.pendingLateBit = false) := by
  rcases completionEvent_cases s with ⟨-, he⟩ | ⟨hw, -, he⟩ | ⟨-, -, -, he⟩ | ⟨-, -, -, he⟩ <;> rw [he]
  · exact ⟨.inl rfl, .inl rfl⟩
  · exact ⟨.inr ⟨hw, rfl⟩, .inl rfl⟩
  · exact ⟨.inl rfl, .inr rfl⟩
  · exact ⟨.inl rfl, .inl rfl⟩

/-- R28: a timeout sets PENDING_LATE in a wait of a block built with it, or keeps it. -/
theorem timeoutEvent_pendingLateBit (s : State) :
    s.timeoutEvent.pendingLateBit = s.pendingLateBit ∨
    (s.ctl = .wait ∧ s.cfg.hasTimeout = true ∧ s.timeoutEvent.pendingLateBit = true) := by
  rcases timeoutEvent_cases s with ⟨ht, hw, -, he⟩ | ⟨-, he⟩ <;> rw [he]
  · exact .inr ⟨hw, ht, rfl⟩
  · exact .inl rfl

/-- Settles O55, agent by agent. -/
theorem flagWriters : Obligations.FlagWriters := by
  intro s t h
  rcases step_cases h with ⟨hm, hc⟩ | ⟨w, -, rfl⟩ | ⟨v, -, rfl⟩ | ⟨hm, rfl⟩ | ⟨hm, rfl⟩ | ⟨hm, rfl⟩ | ⟨hm, rfl⟩
  · obtain ⟨hlate, hdone | ⟨hw, hd, hd'⟩⟩ := coreStep_flags hc
    · simp_all
    · simp_all
  · simp_all
  · simp_all
  · obtain ⟨hdone | ⟨hw, hd⟩, hlate | hlate⟩ := completionEvent_flags s.popMove <;> simp_all
  · simp_all
  · obtain hlate | ⟨hw, ht, hp⟩ := timeoutEvent_pendingLateBit s.popMove <;> simp_all
  · simp_all

/-! ### CANCEL (R33, R147) -/

/-- The state with another level at the CANCEL input (R33). -/
def State.setCancel (s : State) (v : Bool) : State := { s with cancel := v }

@[simp] theorem setCancel_ctl (s : State) (v : Bool) : (s.setCancel v).ctl = s.ctl := rfl
@[simp] theorem setCancel_mode (s : State) (v : Bool) : (s.setCancel v).mode = s.mode := rfl
@[simp] theorem setCancel_leds (s : State) (v : Bool) : (s.setCancel v).leds = s.leds := rfl
@[simp] theorem setCancel_validIndex (s : State) (v : Bool) (idx : LedIndex) :
    (s.setCancel v).validIndex idx = s.validIndex idx := rfl

theorem start_setCancel (s : State) (m : Mode) (v : Bool) : (s.setCancel v).start m = (s.start m).setCancel v := by
  cases hp : s.pendingLate
  · rw [start_of_ready hp]
    exact start_of_ready (s := s.setCancel v) hp m
  · rw [start_of_busy hp]
    exact start_of_busy (s := s.setCancel v) hp m

theorem consume_setCancel (s : State) (v : Bool) : (s.setCancel v).consume = s.consume.setCancel v := by
  rcases consume_cases s with ⟨hd, he⟩ | ⟨hd, hm, he⟩ | ⟨hd, hm, he⟩ <;> rw [he]
  · exact consume_of_not_done (s := s.setCancel v) hd
  · exact consume_of_done_send (s := s.setCancel v) hd hm
  · exact consume_of_done_fade (s := s.setCancel v) hd hm

theorem fadeIteration_setCancel (s : State) (v : Bool) : (s.setCancel v).fadeIteration = s.fadeIteration.setCancel v := by
  rcases fadeIteration_cases s with ⟨hf, he⟩ | ⟨hf, he⟩ <;> rw [he]
  · exact fadeIteration_of_fault (s := s.setCancel v) hf
  · exact fadeIteration_of_no_fault (s := s.setCancel v) hf

/-- A single-step command reads CANCEL only if its body does. -/
theorem singleStep_setCancel {s : State} {body : State → State} {v : Bool}
    (h : body (s.setCancel v) = (body s).setCancel v) : (s.setCancel v).singleStep body = (s.singleStep body).setCancel v := by
  simp only [State.singleStep, setCancel_ctl]
  cases s.ctl <;> simp [h]

/-- A multi-step command reads CANCEL only if its body does, and only where it runs its body. -/
theorem multiStep_setCancel {s : State} {m : Mode} {body : State → State} {v : Bool}
    (h : s.ctl = .exec → s.mode = m → body (s.setCancel v) = (body s).setCancel v) :
    (s.setCancel v).multiStep m body = (s.multiStep m body).setCancel v := by
  simp only [State.multiStep, setCancel_ctl, setCancel_mode, start_setCancel, consume_setCancel]
  cases hc : s.ctl with
  | idle => rfl
  | exec =>
    by_cases hm : s.mode = m
    · simpa [hm] using h hc hm
    · simp [hm]
  | wait => by_cases hm : s.mode = m <;> simp [hm]
  | delay => rfl
  | halted => rfl

/-- R147: no command reads CANCEL but FADE_RUN at its top. -/
theorem exec_setCancel {s t : State} {i : Instr} (v : Bool) (htop : ¬(i = .fadeRun ∧ s.ctl = .exec ∧ s.mode = .fadeRun))
    (h : exec i s = .next t) : exec i (s.setCancel v) = .next (t.setCancel v) := by
  cases i <;> obtain rfl := Host.Outcome.next.inj h <;> apply congrArg Host.Outcome.next
  case nop => exact singleStep_setCancel rfl
  case setColor idx r g b =>
    apply singleStep_setCancel
    cases hi : s.validIndex idx <;> simp only [setCancel_validIndex, hi, Bool.false_eq_true, ↓reduceIte] <;> rfl
  case setBrightness lvl => exact singleStep_setCancel rfl
  case getColor idx =>
    apply singleStep_setCancel
    simp only [setCancel_leds]
    cases s.leds[idx.toNat]? <;> rfl
  case getBrightness => exact singleStep_setCancel rfl
  case send => exact multiStep_setCancel fun _ _ => rfl
  case fadeStep => exact multiStep_setCancel fun _ _ => fadeIteration_setCancel s v
  case fadeRun => exact multiStep_setCancel fun hc hm => absurd ⟨rfl, hc, hm⟩ htop

/-- R147: the core reads CANCEL at the top of FADE_RUN only. -/
theorem coreStep_setCancel {s t : State} (v : Bool) (htop : ¬(s.ctl = .exec ∧ s.mode = .fadeRun))
    (h : coreStep s = .next t) : coreStep (s.setCancel v) = .next (t.setCancel v) := by
  rcases coreStep_cases s with ⟨hi, hp, he⟩ | ⟨w, rest, i, hi, hp, hd, he⟩ | ⟨w, rest, why, hi, hp, hd, he⟩ | ⟨hc, he⟩ |
    ⟨hc, he⟩ <;> rw [he] at h
  · cases h
    exact coreStep_of_no_step (.inr (.inr (.inr ⟨hi, hp⟩)))
  · rw [coreStep_of_command (s := s.setCancel v) hi hp hd]
    exact exec_setCancel (s := { s with port := rest }) v (by simp [hi]) h
  · cases h
    exact coreStep_of_illegal (s := s.setCancel v) hi hp hd
  · rw [coreStep_of_running (s := s.setCancel v) hc]
    exact exec_setCancel v (fun ⟨_, hcm⟩ => htop hcm) h
  · cases h
    exact coreStep_of_no_step (hc.imp_right .inl)

theorem completionEvent_setCancel (s : State) (v : Bool) :
    (s.setCancel v).completionEvent = s.completionEvent.setCancel v := by
  rcases completionEvent_cases s with ⟨hh, he⟩ | ⟨hw, hd, he⟩ | ⟨hh, hw, hp, he⟩ | ⟨hh, hw, hp, he⟩ <;> rw [he]
  · exact completionEvent_of_halted (s := s.setCancel v) hh
  · exact completionEvent_of_waiting (s := s.setCancel v) ⟨hw, hd⟩
  · exact completionEvent_of_late (s := s.setCancel v) hh hw hp
  · exact completionEvent_of_spurious (s := s.setCancel v) hh hw hp

theorem delayEndEvent_setCancel (s : State) (v : Bool) : (s.setCancel v).delayEndEvent = s.delayEndEvent.setCancel v := by
  rcases delayEndEvent_cases s with ⟨hc, hm, he⟩ | ⟨hc, hm, he⟩ | ⟨hno, he⟩ <;> rw [he]
  · exact delayEndEvent_of_fadeStep (s := s.setCancel v) hc hm
  · exact delayEndEvent_of_fadeRun (s := s.setCancel v) hc hm
  · exact delayEndEvent_of_not_fading (s := s.setCancel v) hno

theorem timeoutEvent_setCancel (s : State) (v : Bool) : (s.setCancel v).timeoutEvent = s.timeoutEvent.setCancel v := by
  rcases timeoutEvent_cases s with ⟨ht, hw, hd, he⟩ | ⟨hno, he⟩ <;> rw [he]
  · exact timeoutEvent_of_waiting (s := s.setCancel v) ht ⟨hw, hd⟩
  · exact timeoutEvent_of_not_enabled (s := s.setCancel v) hno

/-- Settles O53: each agent's move commutes with a change of CANCEL. -/
theorem cancelIsReadAtTheTopOfFadeRunOnly : Obligations.CancelIsReadAtTheTopOfFadeRunOnly := by
  intro s t v hdrive htop h
  change takeMove s.nextMove s.popMove = .next t at h
  change takeMove s.nextMove (s.popMove.setCancel v) = .next (t.setCancel v)
  cases hm : s.nextMove <;> rw [hm] at h
  case core => exact coreStep_setCancel v (fun hcm => htop ⟨hm, hcm⟩) h
  case driveCancel u => exact absurd hm (hdrive u)
  all_goals obtain rfl := Host.Outcome.next.inj h
  case offer w => rfl
  case completion => exact congrArg _ (completionEvent_setCancel _ v)
  case delayEnd => exact congrArg _ (delayEndEvent_setCancel _ v)
  case timeout => exact congrArg _ (timeoutEvent_setCancel _ v)
  case completionWithTimeout =>
    simp only [takeMove, simultaneousEvent_eq]
    exact congrArg _ (completionEvent_setCancel _ v)
  case reset => rfl

/-! ### The LEDs and the frames of a FADE_RUN's iterations (R143, R144) -/

/-- The LEDs after `k` advances of the whole store. -/
def ledsAfter (step : Byte) (leds : List Led) : Nat → List Led
  | 0 => leds
  | k + 1 => (advanceAll step (ledsAfter step leds k)).1

theorem ledsAfter_levels {step : Byte} {leds : List Led} (h : ∀ led ∈ leds, led.level ≠ 3) (k : Nat) :
    ∀ led ∈ ledsAfter step leds k, led.level ≠ 3 := by
  induction k with
  | zero => exact h
  | succ k ih => exact advanceAll_levels ih

theorem ledsAfter_length (step : Byte) (leds : List Led) (k : Nat) : (ledsAfter step leds k).length = leds.length := by
  induction k with
  | zero => rfl
  | succ k ih => exact (advanceAll_length _ _).trans ih

/-- From legal levels, LED i after `k` advances of the whole store is `k` advances of LED i (R143). -/
theorem advancedTimes_ledsAfter {step : Byte} {leds : List Led} (h : ∀ led ∈ leds, led.level ≠ 3) (k : Nat) :
    AdvancedTimes step k leds (ledsAfter step leds k) := by
  refine ⟨ledsAfter_length step leds k, fun i led hi => ?_⟩
  induction k with
  | zero => exact ⟨led, rfl, hi⟩
  | succ k ih =>
    obtain ⟨led', hadv, hk⟩ := ih
    have hlevels := ledsAfter_levels (step := step) h k
    have hnext : (ledsAfter step leds (k + 1))[i]? = led'.advance step := advanceAll_getElem? hlevels hk
    have hlevel : led'.level ≠ 3 := hlevels led' (List.mem_of_getElem? hk)
    obtain ⟨led'', hsome⟩ := Option.ne_none_iff_exists'.1 (mt (advance_eq_none_iff step led').1 hlevel)
    exact ⟨led'', by simp [advances, hadv, hsome], hnext.trans hsome⟩

/-- The sequence a FADE_RUN that starts from `s` renders in the iteration that makes advance number `k` (R104, R144). -/
def State.frameAfter (s : State) (k : Nat) : List Nat :=
  pulseSequence s.cfg s.bri ((ledsAfter s.cfg.fadeStep s.leds k).map Led.color)

/-- The submissions of its first `n` iterations (R107). -/
def State.framesAfter (s : State) (n : Nat) : List Submission :=
  (List.range n).map fun k => ⟨s.frameAfter (k + 1), s.cfg.channel⟩

/-- PB after its first `n` iterations. -/
def State.pbAfter (s : State) : Nat → List Nat
  | 0 => s.pb
  | k + 1 => s.frameAfter (k + 1)

theorem framesAfter_succ (s : State) (n : Nat) :
    s.framesAfter (n + 1) = s.framesAfter n ++ [⟨s.frameAfter (n + 1), s.cfg.channel⟩] := by
  simp [State.framesAfter, List.range_succ]

theorem framesAfter_length (s : State) (n : Nat) : (s.framesAfter n).length = n := by
  simp [State.framesAfter]

/-- Submission number `k` carries CHANNEL and the frame of the LEDs after `k + 1` advances. -/
theorem framesAfter_getElem? {s : State} {n k : Nat} {frame : Submission} (h : (s.framesAfter n)[k]? = some frame) :
    frame.channel = s.cfg.channel ∧
      CarriesFrame s.cfg s.bri (ledsAfter s.cfg.fadeStep s.leds (k + 1)) frame.seq := by
  simp only [State.framesAfter, List.getElem?_map, Option.map_eq_some_iff] at h
  obtain ⟨j, hj, rfl⟩ := h
  obtain ⟨_, hk⟩ := List.getElem?_eq_some_iff.1 hj
  rw [List.getElem_range] at hk
  subst hk
  exact ⟨rfl, pulseSequence_carriesFrame _ _ _⟩

/-! ### The run of a FADE_RUN (R144, R146) -/

theorem step_of_completion {s : State} (h : s.nextMove = .completion) : step s = .next s.popMove.completionEvent := by
  simp [step, h, takeMove]

theorem step_of_delayEnd {s : State} (h : s.nextMove = .delayEnd) : step s = .next s.popMove.delayEndEvent := by
  simp [step, h, takeMove]

/-- A run is its first step and then the rest. -/
theorem run_of_step {s t : State} (h : step s = .next t) (n : Nat) :
    Host.Core.run Sys2Proof.core (n + 1) s = Host.Core.run Sys2Proof.core n t := by
  have hcore : Sys2Proof.core.step s = .next t := h
  simp only [Host.Core.run, hcore]

/-- The top of iteration `k` of a FADE_RUN that starts from `s`, nothing outstanding, with the moves to come. -/
def State.atTop (s : State) (k : Nat) (moves : List Move) : State :=
  { s with
    schedule := moves
    ctl := .exec
    mode := .fadeRun
    done := false
    outstanding := false
    iter := BitVec.ofNat 32 k
    leds := ledsAfter s.cfg.fadeStep s.leds k
    pb := s.pbAfter k
    submissions := s.submissions ++ s.framesAfter k }

/-- Iteration `k` with its frame sent, one submission more than at its top. -/
def State.sentFrom (s : State) (k : Nat) (moves : List Move) : State :=
  { s.atTop (k + 1) moves with ctl := .wait, outstanding := true, iter := BitVec.ofNat 32 k }

/-- The top of a FADE_RUN with CANCEL = 0 advances every LED and sends the frame (R144, R146). -/
theorem coreStep_of_top {s : State} (hc : s.ctl = .exec) (hm : s.mode = .fadeRun) (hcancel : s.cancel = false)
    (hlevels : ∀ led ∈ s.leds, led.level ≠ 3) :
    coreStep s = .next (State.sendFrame { s with leds := (advanceAll s.cfg.fadeStep s.leds).1 }) := by
  rw [coreStep_of_running (.inl hc), hm, runningCommand, exec_fadeRun, ← hm, multiStep_of_exec hc, runTop_of_no_cancel hcancel,
    fadeIteration_of_no_fault (advanceAll_of_legal hlevels).1]

/-- The top of a FADE_RUN with CANCEL = 1 answers ITER and ends it (R146). -/
theorem coreStep_of_cancelled_top {s : State} (hc : s.ctl = .exec) (hm : s.mode = .fadeRun) (hcancel : s.cancel = true) :
    coreStep s = .next ((s.respond .ok s.iterData).goto .idle) := by
  rw [coreStep_of_running (.inl hc), hm, runningCommand, exec_fadeRun, ← hm, multiStep_of_exec hc, runTop_of_cancel hcancel]

/-- The consume of a FADE_RUN takes it to DELAY (R108). -/
theorem coreStep_of_consume_fadeRun {s : State} (hw : s.ctl = .wait) (hm : s.mode = .fadeRun) (hd : s.done = true) :
    coreStep s = .next (s.clearDone.goto .delay) := by
  rw [coreStep_of_running (.inr hw), hm, runningCommand, exec_fadeRun, ← hm, multiStep_of_wait hw,
    consume_of_done_fade hd (by simp [hm])]

/-- The core's move at the top of iteration `k`. -/
theorem step_atTop {s : State} (hcancel : s.cancel = false) (hlevels : ∀ led ∈ s.leds, led.level ≠ 3) (k : Nat)
    (more : List Move) : step (s.atTop k (.core :: more)) = .next (s.sentFrom k more) := by
  have hsent : State.sendFrame { s.atTop k more with leds := ledsAfter s.cfg.fadeStep s.leds (k + 1) } = s.sentFrom k more := by
    simp only [State.sentFrom, State.atTop, framesAfter_succ, ← List.append_assoc]
    rfl
  rw [step_of_core rfl, ← hsent]
  exact coreStep_of_top (s := s.atTop k more) rfl rfl hcancel (ledsAfter_levels hlevels k)

/-- Completion, consume and delay end take iteration `k`, its frame sent, to the next top. -/
theorem run_sentFrom (s : State) (k : Nat) (more : List Move) :
    Host.Core.run Sys2Proof.core 3 (s.sentFrom k (.completion :: .core :: .delayEnd :: more)) = .next (s.atTop (k + 1) more) := by
  have hcompletion := step_of_completion (s := s.sentFrom k (.completion :: .core :: .delayEnd :: more)) rfl
  rw [completionEvent_of_waiting (by exact ⟨rfl, rfl⟩)] at hcompletion
  have hiter : BitVec.ofNat 32 (k + 1) = BitVec.ofNat 32 k + 1 := BitVec.ofNat_add k 1
  rw [run_of_step hcompletion, run_of_step ((step_of_core rfl).trans (coreStep_of_consume_fadeRun rfl rfl rfl)),
    run_of_step (step_of_delayEnd rfl), delayEndEvent_of_fadeRun rfl rfl]
  simp only [State.atTop, hiter]
  rfl

/-- From the first top, `n` rounds of core, completion, core and delay end lead to the top of iteration `n`. -/
theorem run_atTop {s : State} (hcancel : s.cancel = false) (hlevels : ∀ led ∈ s.leds, led.level ≠ 3) (n : Nat)
    (more : List Move) :
    Host.Core.run Sys2Proof.core (4 * n)
      (s.atTop 0 ((List.replicate n [.core, .completion, .core, .delayEnd]).flatten ++ more)) = .next (s.atTop n more) := by
  induction n generalizing more with
  | zero => rfl
  | succ n ih =>
    rw [List.replicate_succ', List.flatten_append, List.append_assoc, Nat.mul_succ, run_add _ _ (ih _)]
    exact (run_of_step (step_atTop hcancel hlevels n _) 3).trans (run_sentFrom s n more)

/-- The acceptance of FADE_RUN leads to the top of iteration 0 (R85). -/
theorem step_accepts_fadeRun {s : State} (hi : s.ctl = .idle) (hd : s.done = false) (ho : s.outstanding = false)
    (hlate : s.pendingLate = false) {rest : List Word} (hp : s.port = 0x0500000000000000 :: rest) {more : List Move}
    (hs : s.schedule = .core :: more) : step s = .next (State.atTop { s with port := rest } 0 more) := by
  have hm : s.nextMove = .core := by simp [State.nextMove, hs]
  rw [step_of_core hm, coreStep_of_command (s := s.popMove) hi hp (i := .fadeRun) (by decide), exec_fadeRun,
    multiStep_of_idle (s := { s.popMove with port := rest }) hi, start_of_ready (s := { s.popMove with port := rest }) hlate]
  simp [State.atTop, State.popMove, State.pbAfter, State.framesAfter, ledsAfter, hs, hd, ho]

/-- CANCEL asserted before the next top, the FADE_RUN ends there (R146, R147). -/
theorem run_cancelled (s : State) (n : Nat) (more : List Move) :
    Host.Core.run Sys2Proof.core 2 (s.atTop n (.driveCancel true :: .core :: more)) =
      .next { s.atTop n more with
        ctl := .idle
        cancel := true
        responses := s.responses ++ [BitVec.ofNat 64 (n % 2 ^ 32)] } := by
  have hdrive : step (s.atTop n (.driveCancel true :: .core :: more)) =
      .next ((s.atTop n (.core :: more)).setCancel true) := rfl
  rw [run_of_step hdrive, run_of_step ((step_of_core rfl).trans (coreStep_of_cancelled_top rfl rfl rfl))]
  have hword : responseWord .ok ((s.atTop n (.core :: more)).setCancel true).popMove.iterData =
      BitVec.ofNat 64 (n % 2 ^ 32) := by
    rw [responseWord_ok, iterData_toNat]
    rfl
  rw [← hword]
  rfl

/-- Settles O29: acceptance, `n` iterations by induction, and the cancelled top. -/
theorem fadeRunAnswersTheNumberOfItsIterations : Obligations.FadeRunAnswersTheNumberOfItsIterations := by
  intro n s more hi hd ho hcancel hlate hlevels hhead hs
  obtain ⟨rest, hp⟩ := List.head?_eq_some_iff.1 hhead
  rw [List.append_assoc, List.cons_append] at hs
  have haccept := step_accepts_fadeRun hi hd ho ((pendingLate_eq_false_iff s).2 hlate) hp hs
  have hrun : Host.Core.run Sys2Proof.core (4 * n + 3) s = .next { State.atTop { s with port := rest } n more with
      ctl := .idle
      cancel := true
      responses := s.responses ++ [BitVec.ofNat 64 (n % 2 ^ 32)] } := by
    rw [show 4 * n + 3 = 4 * n + 2 + 1 by omega, run_of_step haccept,
      run_add _ _ (run_atTop (s := { s with port := rest }) hcancel hlevels n _)]
    exact run_cancelled _ n more
  refine ⟨_, s.framesAfter n, hrun, advancedTimes_ledsAfter hlevels n, framesAfter_length s n, fun k frame hk => ?_,
    fun h0 => ?_, fun h0 => ?_, ?_⟩
  · obtain ⟨hchannel, hframe⟩ := framesAfter_getElem? hk
    exact ⟨hchannel, _, advancedTimes_ledsAfter hlevels (k + 1), hframe⟩
  · subst h0
    rfl
  · obtain ⟨m, rfl⟩ := Nat.exists_eq_succ_of_ne_zero h0
    rw [framesAfter_succ, List.getLast?_concat]
    rfl
  · simp only [State.atTop, hi, hd, ho, hp, List.tail_cons]
    rfl

end Sys2Proof.Machine
end

section
/-! PROOFS. The statements on the memory of the block (20_memory.md): the LED index space and its strict bound, SEND's frame in
PB, and PB while a submission is in flight. -/

namespace Sys2Proof.Machine

open Sys2Proof

/-! ### The pulse buffer (R52, R59-R61, R104-R109) -/

/-- Settles O21: SEND's step from EXEC is the frame send. -/
theorem sendRendersSubmitsAndWaits : Obligations.SendRendersSubmitsAndWaits := by
  intro s he hm
  refine ⟨s.sendFrame, ?_, pulseSequence_carriesFrame s.cfg s.bri s.leds, rfl⟩
  rw [exec_send, ← hm, multiStep_of_exec he]

@[simp] theorem completionEvent_pb (s : State) : s.completionEvent.pb = s.pb := by
  rw [completionEvent_frame]
@[simp] theorem delayEndEvent_pb (s : State) : s.delayEndEvent.pb = s.pb := by
  rw [delayEndEvent_frame]
@[simp] theorem timeoutEvent_pb (s : State) : s.timeoutEvent.pb = s.pb := by
  rw [timeoutEvent_frame]

/-- R105: the core writes PB only in a frame send, which it makes from EXEC. -/
theorem coreStep_pb {s t : State} (he : s.ctl ≠ .exec) (h : coreStep s = .next t) : t.pb = s.pb := by
  rcases coreStep_results h with ⟨-, rfl⟩ | ⟨w, rest, st, d, -, -, -, -, rfl⟩ | ⟨w, rest, idx, r, g, b, -, -, -, -, rfl⟩ |
    ⟨w, rest, lvl, -, -, -, rfl⟩ | ⟨w, rest, m, -, -, -, rfl⟩ | ⟨hx, -⟩ | ⟨hx, -⟩ | ⟨hx, -⟩ | ⟨hx, -⟩ |
    ⟨-, -, -, rfl⟩ | ⟨-, -, -, rfl⟩
  · rfl
  · rfl
  · rfl
  · rfl
  · rfl
  · exact absurd hx he
  · exact absurd hx he
  · exact absurd hx he
  · exact absurd hx he
  · rfl
  · rfl

/-- The same of a whole step: of the other agents only the reset writes PB. -/
theorem step_pb {s t : State} (he : s.ctl ≠ .exec) (hreset : s.nextMove ≠ .reset) (h : step s = .next t) : t.pb = s.pb := by
  rcases step_cases h with ⟨-, hc⟩ | ⟨w, -, rfl⟩ | ⟨v, -, rfl⟩ | ⟨-, rfl⟩ | ⟨-, rfl⟩ | ⟨-, rfl⟩ | ⟨hm, -⟩
  · exact coreStep_pb (s := s.popMove) he hc
  · rfl
  · rfl
  · simp
  · simp
  · simp
  · exact absurd hm hreset

/-- From a submission until its completion is consumed the core is not in EXEC (R60, R61). -/
theorem ctl_ne_exec_of_inFlight {s : State} (hinv : s.Inv) (hflight : s.ctl = .wait ∨ s.outstanding = true) :
    s.ctl ≠ .exec := by
  intro he
  rcases hflight with hw | ho
  · simp [he] at hw
  · simp [outstanding_eq_false_of_exec hinv he] at ho

/-- Settles O50: PB and the submissions are written from EXEC only, where nothing is in flight, and by a reset; the invariant,
which the step keeps, says that what is in flight is PB. -/
theorem pulseBufferIsNotWrittenInFlight : Obligations.PulseBufferIsNotWrittenInFlight := by
  intro s t hinv h hreset hflight
  have he := ctl_ne_exec_of_inFlight hinv hflight
  have hsubmissions : t.submissions = s.submissions := (step_submissions h).resolve_right fun hsend => he hsend.1
  obtain ⟨-, -, -, -, ⟨-, hsnapshot⟩, -⟩ := everyStepKeepsTheBlockConsistent s t hinv h
  exact ⟨step_pb he hreset h, hsubmissions, hsnapshot⟩

/-! ### The LED index space (R50, R51, R55, R171) -/

/-- R111: a colour write puts the colour beside the level of the LED it finds. -/
theorem writeColor_leds_of_getElem? {s : State} {i : Nat} {led : Led} (h : s.leds[i]? = some led) (c : Color) :
    (s.writeColor i c).leds = s.leds.set i ⟨c, led.level⟩ := by
  simp [List.modify_eq_set_getElem?, h]

/-- R171: GET_COLOR finds no LED from N on. -/
theorem exec_getColor_of_le {s : State} {idx : LedIndex} (h : s.ctl = .idle) (hi : s.numLeds ≤ idx.toNat) :
    exec (.getColor idx) s = .next (s.respond .outOfRange 0) := by
  simp [exec, execGetColor, singleStep_of_idle h, List.getElem?_eq_none hi]

/-- Settles O12: the index finds an LED, so it is below N, and the colour write sets that LED. -/
theorem setColorWritesTheThreeChannels : Obligations.SetColorWritesTheThreeChannels := by
  intro s idx r g b led hi hled
  have hlt : idx.toNat < s.numLeds := (List.getElem?_eq_some_iff.1 hled).1
  rw [exec_setColor_of_lt hi hlt, ← writeColor_leds_of_getElem? hled]
  rfl

/-- Settles O13: both commands split at N. -/
theorem indexesFromNAreOutOfRange : Obligations.IndexesFromNAreOutOfRange := by
  refine ⟨fun s idx r g b hi hidx => ⟨?_, ?_⟩, fun s idx r g b hi hidx => ⟨?_, ?_⟩⟩
  · rw [exec_setColor_of_le hi hidx]
    rfl
  · rw [exec_getColor_of_le hi hidx]
    rfl
  · exact ⟨_, exec_setColor_of_lt hi hidx r g b, rfl⟩
  · exact ⟨_, _, exec_getColor_of_getElem? hi (List.getElem?_eq_getElem hidx), rfl⟩

end Sys2Proof.Machine
end

section
/-! PROOFS. The statements on the encoding (30_encoding.md): the decoder and the encoder, illegal words, the responses, the runs
of a SEND and of a FADE_STEP, and the assembly language; before each, the equations it needs. -/

namespace Sys2Proof

/-! ### The rows of the opcode map (R76, R77) -/

theorem accepts_iff_and_eq (row : Row) (w : Word) : row.accepts w = true ↔ w &&& row.mask = row.pattern := beq_iff_eq

theorem opcodes_nodup : (opcodeMap.map fun row => opcField row.pattern).Nodup := by decide

theorem opcode_lt : ∀ row ∈ opcodeMap, (opcField row.pattern).toNat < 8 := by decide

theorem opcode_covered : ∀ row ∈ opcodeMap, row.mask.extractLsb' 56 8 = 0xFF := by decide

/-- R76: each row has an opcode of its own. -/
theorem row_eq_of_opcode {row other : Row} (hrow : row ∈ opcodeMap) (hother : other ∈ opcodeMap)
    (h : opcField row.pattern = opcField other.pattern) : row = other :=
  List.inj_on_of_nodup_map opcodes_nodup hrow hother h

/-- R76: at most one row accepts a word, since the word has the row's opcode. -/
theorem row_eq_of_accepts {row other : Row} {w : Word} (hrow : row ∈ opcodeMap) (hother : other ∈ opcodeMap)
    (ha : row.accepts w = true) (hb : other.accepts w = true) : row = other :=
  row_eq_of_opcode hrow hother ((opcode_of_accepts hrow ha).symm.trans (opcode_of_accepts hother hb))

/-- No row stands in the map twice. -/
theorem rowIndex_unique {m n : Nat} {row : Row} (hm : opcodeMap[m]? = some row) (hn : opcodeMap[n]? = some row) : m = n :=
  (List.getElem?_inj (List.getElem?_eq_some_iff.1 hm).1 opcodes_nodup.of_map).1 (hm.trans hn.symm)

/-- A field that the mask covers has the row's bits in every word the row accepts (R76). -/
theorem field_of_accepts {row : Row} {w : Word} {lo len : Nat} (hmask : row.mask.extractLsb' lo len = BitVec.allOnes len)
    (ha : row.accepts w = true) : w.extractLsb' lo len = row.pattern.extractLsb' lo len := by
  rw [← (accepts_iff_and_eq row w).1 ha, BitVec.extractLsb'_and, hmask, BitVec.and_allOnes]

/-- R76: a word that a row accepts decodes to the row's command: the row found first is the only one. -/
theorem decode_of_accepts {row : Row} {w : Word} (hrow : row ∈ opcodeMap) (ha : row.accepts w = true) :
    decode w = .command (row.read w) := by
  obtain ⟨found, hfind⟩ := Option.isSome_iff_exists.1
    (List.find?_isSome (p := fun row => row.accepts w) |>.2 ⟨row, hrow, ha⟩)
  have hfound : found.accepts w = true := by simpa using List.find?_some hfind
  have hsame : found = row := row_eq_of_accepts (List.mem_of_find?_eq_some hfind) hrow hfound ha
  simp [decode, hfind, hsame]

/-- R79: a word with a row's opcode that differs from the row in a field its mask covers is illegal: no other row has the
opcode. -/
theorem decode_of_reservedField {n : Nat} {row : Row} {w : Word} {lo len : Nat} (hrow : opcodeMap[n]? = some row)
    (hopc : opcField w = opcField row.pattern) (hmask : row.mask.extractLsb' lo len = BitVec.allOnes len)
    (hne : w.extractLsb' lo len ≠ row.pattern.extractLsb' lo len) : decode w = .illegal .reservedField := by
  have hmem := List.mem_of_getElem? hrow
  have hnone : ∀ other ∈ opcodeMap, other.accepts w = false := by
    intro other hother
    rw [Bool.eq_false_iff]
    intro ha
    obtain rfl := row_eq_of_opcode hother hmem ((opcode_of_accepts hother ha).symm.trans hopc)
    exact hne (field_of_accepts hmask ha)
  rw [decode_of_no_row hnone, if_pos (hopc ▸ opcode_lt row hmem)]

/-- R78: no row has a reserved opcode. -/
theorem decode_of_reservedOpcode {w : Word} (h : 8 ≤ (opcField w).toNat) : decode w = .illegal .reservedOpcode := by
  have hnone : ∀ row ∈ opcodeMap, row.accepts w = false := by
    intro row hrow
    rw [Bool.eq_false_iff]
    intro ha
    have hlt := opcode_lt row hrow
    rw [← opcode_of_accepts hrow ha] at hlt
    omega
  rw [decode_of_no_row hnone, if_neg (by omega)]

/-! ### The fields of an encoded word, and the word of its fields (R71-R75) -/

@[simp] theorem blueField_formatC (opc : Byte) (idx : LedIndex) (r g b : Byte) : blueField (formatC opc idx r g b) = b :=
  BitVec.extractLsb'_append_eq_right (a := opc ++ idx ++ 0#16 ++ r ++ g)

@[simp] theorem greenField_formatC (opc : Byte) (idx : LedIndex) (r g b : Byte) : greenField (formatC opc idx r g b) = g :=
  (BitVec.extractLsb'_append_eq_of_le (xhi := opc ++ idx ++ 0#16 ++ r ++ g) (by decide)).trans
    BitVec.extractLsb'_append_eq_right

@[simp] theorem redField_formatC (opc : Byte) (idx : LedIndex) (r g b : Byte) : redField (formatC opc idx r g b) = r := by
  apply BitVec.eq_of_getLsbD_eq
  intro k hk
  simp only [redField, BitVec.getLsbD_extractLsb', getLsbD_formatC]
  grind

@[simp] theorem idxField_formatC (opc : Byte) (idx : LedIndex) (r g b : Byte) : idxField (formatC opc idx r g b) = idx := by
  apply BitVec.eq_of_getLsbD_eq
  intro k hk
  simp only [idxField, BitVec.getLsbD_extractLsb', getLsbD_formatC]
  grind

@[simp] theorem idxField_formatI (opc : Byte) (idx : LedIndex) : idxField (formatI opc idx) = idx := by
  apply BitVec.eq_of_getLsbD_eq
  intro k hk
  simp only [idxField, BitVec.getLsbD_extractLsb', getLsbD_formatI]
  grind

@[simp] theorem levelField_formatB (opc lvl : Byte) : levelField (formatB opc lvl) = lvl :=
  BitVec.extractLsb'_append_eq_right (a := opc ++ 0#48)

theorem formatZ_of_fields {w : Word} (h : w.extractLsb' 0 56 = 0) : formatZ (opcField w) = w := by
  have hw : opcField w ++ w.extractLsb' 0 56 = w := BitVec.extractLsb'_append_extractLsb'
  rwa [h] at hw

theorem formatC_of_fields {w : Word} (h : w.extractLsb' 24 16 = 0) :
    formatC (opcField w) (idxField w) (redField w) (greenField w) (blueField w) = w := by
  have hw : opcField w ++ idxField w ++ w.extractLsb' 24 16 ++ redField w ++ greenField w ++ blueField w = w := by
    simp only [opcField, idxField, redField, greenField, blueField, BitVec.extractLsb'_append_extractLsb'_eq_extractLsb',
      BitVec.extractLsb'_eq_self]
  rwa [h] at hw

theorem formatI_of_fields {w : Word} (h : w.extractLsb' 0 40 = 0) : formatI (opcField w) (idxField w) = w := by
  have hw : opcField w ++ idxField w ++ w.extractLsb' 0 40 = w := by
    simp only [opcField, idxField, BitVec.extractLsb'_append_extractLsb'_eq_extractLsb', BitVec.extractLsb'_eq_self]
  rwa [h] at hw

theorem formatB_of_fields {w : Word} (h : w.extractLsb' 8 48 = 0) : formatB (opcField w) (levelField w) = w := by
  have hw : opcField w ++ w.extractLsb' 8 48 ++ levelField w = w := by
    simp only [opcField, levelField, BitVec.extractLsb'_append_extractLsb'_eq_extractLsb', BitVec.extractLsb'_eq_self]
  rwa [h] at hw

/-! ### Decoder and encoder agree (R70-R79) -/

open Laws.EncodesToItsRow in
/-- A command's encoding decodes to what the command's own row reads from it. -/
theorem decode_encode_of_row {i : Instr} {row : Row} (h : Statement i) (hrow : opcodeMap[rowIndex i]? = some row)
    (hread : row.read (encode i) = i) : decode (encode i) = .command i := by
  obtain ⟨own, hown, ha⟩ := h
  obtain rfl := Option.some.inj (hown.symm.trans hrow)
  rw [decode_of_accepts (List.mem_of_getElem? hown) ha, hread]

open Laws in
theorem decode_encode (i : Instr) : decode (encode i) = .command i := by
  cases i with
  | nop => exact decode_encode_of_row EncodesToItsRow.nop rfl rfl
  | setColor idx r g b => exact decode_encode_of_row (EncodesToItsRow.setColor idx r g b) rfl (by simp [encode])
  | setBrightness lvl => exact decode_encode_of_row (EncodesToItsRow.setBrightness lvl) rfl (by simp [encode])
  | send => exact decode_encode_of_row EncodesToItsRow.send rfl rfl
  | fadeStep => exact decode_encode_of_row EncodesToItsRow.fadeStep rfl rfl
  | fadeRun => exact decode_encode_of_row EncodesToItsRow.fadeRun rfl rfl
  | getColor idx => exact decode_encode_of_row (EncodesToItsRow.getColor idx) rfl (by simp [encode])
  | getBrightness => exact decode_encode_of_row EncodesToItsRow.getBrightness rfl rfl

/-- A row of format Z accepts one word only: its opcode over zero bits (R71). -/
theorem formatZ_of_accepts {row : Row} {w : Word} (hrow : row ∈ opcodeMap) (ha : row.accepts w = true)
    (hmask : row.mask.extractLsb' 0 56 = BitVec.allOnes 56) (hpattern : row.pattern.extractLsb' 0 56 = 0) :
    formatZ (opcField row.pattern) = w := by
  rw [← opcode_of_accepts hrow ha]
  exact formatZ_of_fields ((field_of_accepts hmask ha).trans hpattern)

/-- What a row reads from a word it accepts encodes to that word: the mask leaves open nothing but the operands. -/
theorem encode_read {row : Row} {w : Word} (hrow : row ∈ opcodeMap) (ha : row.accepts w = true) :
    encode (row.read w) = w := by
  have hopc := opcode_of_accepts hrow ha
  have hZ := formatZ_of_accepts hrow ha
  simp only [opcodeMap, List.mem_cons, List.not_mem_nil, or_false] at hrow
  rcases hrow with rfl | rfl | rfl | rfl | rfl | rfl | rfl | rfl
  · exact hZ (by decide) (by decide)
  · exact (congrArg (formatC · _ _ _ _) hopc.symm).trans (formatC_of_fields (field_of_accepts (by decide) ha))
  · exact (congrArg (formatB · _) hopc.symm).trans (formatB_of_fields (field_of_accepts (by decide) ha))
  · exact hZ (by decide) (by decide)
  · exact hZ (by decide) (by decide)
  · exact hZ (by decide) (by decide)
  · exact (congrArg (formatI · _) hopc.symm).trans (formatI_of_fields (field_of_accepts (by decide) ha))
  · exact hZ (by decide) (by decide)

/-- Settles O1, command by command through its own row of the map. -/
theorem decodeOfEncodeGivesTheCommand : Obligations.DecodeOfEncodeGivesTheCommand :=
  decode_encode

/-- Settles O2: the row that accepts the word reads from it the command it encodes. -/
theorem encodeOfDecodeGivesTheWord : Obligations.EncodeOfDecodeGivesTheWord := by
  intro w i h
  obtain ⟨row, hrow, ha, rfl⟩ := decode_cases h
  exact encode_read hrow ha

/-- Settles O3, from the distinct opcodes of the rows. -/
theorem decodingFollowsTheDisjointRowsOfTheMap : Obligations.DecodingFollowsTheDisjointRowsOfTheMap := by
  refine ⟨fun row hrow w h => ?_, fun m n rowM rowN w hm hn h h' => ?_, fun m n rowM rowN hm hn hne h => ?_,
    opcode_covered, fun w h => ⟨_, decode_of_no_row fun row hrow => ?_⟩⟩
  · exact decode_of_accepts hrow ((accepts_iff_and_eq row w).2 h)
  · obtain rfl := row_eq_of_accepts (List.mem_of_getElem? hm) (List.mem_of_getElem? hn)
      ((accepts_iff_and_eq rowM w).2 h) ((accepts_iff_and_eq rowN w).2 h')
    exact rowIndex_unique hm hn
  · obtain rfl := row_eq_of_opcode (List.mem_of_getElem? hm) (List.mem_of_getElem? hn) h
    exact hne (rowIndex_unique hm hn)
  · exact Bool.eq_false_iff.2 fun ha => h row hrow ((accepts_iff_and_eq row w).1 ha)

/-- Settles O4, format by format. -/
theorem nonzeroReservedBitsAreIllegal : Obligations.NonzeroReservedBitsAreIllegal := by
  refine ⟨fun w hopc hres => ?_, fun w hopc hres => ?_, fun w hopc hres => ?_, fun w hopc hres => ?_, ?_⟩
  · rcases hopc with h | h | h | h | h
    · exact decode_of_reservedField (n := 0) rfl h (by decide) hres
    · exact decode_of_reservedField (n := 3) rfl h (by decide) hres
    · exact decode_of_reservedField (n := 4) rfl h (by decide) hres
    · exact decode_of_reservedField (n := 5) rfl h (by decide) hres
    · exact decode_of_reservedField (n := 7) rfl h (by decide) hres
  · exact decode_of_reservedField (n := 1) rfl hopc (by decide) hres
  · exact decode_of_reservedField (n := 2) rfl hopc (by decide) hres
  · exact decode_of_reservedField (n := 6) rfl hopc (by decide) hres
  · decide

/-- Settles O6: each word is the encoding of its command. -/
theorem wordsOfTheSpecDecodeToTheirCommands : Obligations.WordsOfTheSpecDecodeToTheirCommands :=
  ⟨decode_encode .nop, decode_encode (.setColor 0 255 0 0), decode_encode (.setColor 3 1 2 3),
    decode_encode (.setBrightness 30), decode_encode .send, decode_encode .fadeStep, decode_encode .fadeRun,
    decode_encode (.getColor 3), decode_encode .getBrightness⟩

end Sys2Proof

namespace Sys2Proof.Machine

open Sys2Proof

/-- Settles O5, from the equation of an illegal word's acceptance. -/
theorem illegalWordsAreAnsweredIllegalCommand : Obligations.IllegalWordsAreAnsweredIllegalCommand := by
  refine ⟨fun w => decode_of_reservedOpcode, ?_⟩
  rintro s w why hd ⟨hi, hhead, hm⟩
  obtain ⟨rest, hp⟩ := List.head?_eq_some_iff.1 hhead
  rw [step_of_core hm, coreStep_of_illegal (s := s.popMove) hi hp hd, hp]
  rfl

/-! ### The commands that only answer (R110, R113, R114) -/

theorem exec_nop {s : State} (h : s.ctl = .idle) : exec .nop s = .next (s.respond .ok 0) :=
  congrArg _ (singleStep_of_idle h _)

theorem exec_getBrightness {s : State} (h : s.ctl = .idle) :
    exec .getBrightness s = .next (s.respond .ok s.brightnessData) :=
  congrArg _ (singleStep_of_idle h _)

/-- The data of GET_BRIGHTNESS on numbers (R81). -/
theorem brightnessData_toNat (s : State) : s.brightnessData.toNat = s.bri.toNat :=
  BitVec.toNat_setWidth_of_le (by decide)

/-- Settles O11. -/
theorem nopAnswersOk : Obligations.NopAnswersOk := by
  refine ⟨decode_encode .nop, fun w hopc hres => ⟨.reservedField, ?_⟩, fun s hi => exec_nop hi, fun s t hi h => ?_⟩
  · exact decode_of_reservedField (n := 0) rfl hopc (by decide) hres
  · rw [exec_of_not_idle (i := .nop) hi nofun nofun nofun] at h
    rw [Host.Outcome.next.inj h]

/-- Settles O15: the data is the LED found, on numbers. -/
theorem getColorAnswersTheStoredLed : Obligations.GetColorAnswersTheStoredLed := by
  intro s idx led hi hled
  rw [exec_getColor_of_getElem? hi hled, ← ledData_toNat, ← responseWord_ok]
  rfl

/-- Settles O16. -/
theorem getBrightnessAnswersBri : Obligations.GetBrightnessAnswersBri := by
  intro s hi
  rw [exec_getBrightness hi, ← brightnessData_toNat, ← responseWord_ok]
  rfl

/-! ### One response per step (R80, R170, R182) -/

theorem status_code_le (st : Status) : st.code.toNat ≤ 4 := by
  cases st <;> decide

/-- The response record stands, or one response is added to it. -/
def RespondsAtMostOnce (s t : State) : Prop :=
  t.responses = s.responses ∨ ∃ st d, t.responses = s.responses ++ [responseWord st d]

theorem respondsAtMostOnce_coreStep {s t : State} (h : coreStep s = .next t) : RespondsAtMostOnce s t := by
  rcases coreStep_results h with ⟨-, rfl⟩ | ⟨w, rest, st, d, -, -, -, -, rfl⟩ | ⟨w, rest, idx, r, g, b, -, -, -, -, rfl⟩ |
    ⟨w, rest, lvl, -, -, -, rfl⟩ | ⟨w, rest, m, -, -, -, rfl⟩ | ⟨-, -, rfl⟩ | ⟨-, -, -, rfl⟩ | ⟨-, -, -, rfl⟩ |
    ⟨-, -, -, rfl⟩ | ⟨-, -, -, rfl⟩ | ⟨-, -, -, rfl⟩
  · exact .inl rfl
  · exact .inr ⟨st, d, rfl⟩
  · exact .inr ⟨.ok, 0, rfl⟩
  · exact .inr ⟨.ok, 0, rfl⟩
  · exact .inl rfl
  · exact .inl rfl
  · exact .inr ⟨.ok, s.iterData, rfl⟩
  · exact .inl rfl
  · exact .inl rfl
  · exact .inr ⟨.ok, 0, rfl⟩
  · exact .inl rfl

@[simp] theorem completionEvent_responses (s : State) : s.completionEvent.responses = s.responses := by
  rw [completionEvent_frame]

theorem respondsAtMostOnce_delayEndEvent (s : State) : RespondsAtMostOnce s s.delayEndEvent := by
  rcases delayEndEvent_cases s with ⟨-, -, he⟩ | ⟨-, -, he⟩ | ⟨-, he⟩ <;> rw [he]
  · exact .inr ⟨.ok, 0, rfl⟩
  · exact .inl rfl
  · exact .inl rfl

theorem respondsAtMostOnce_timeoutEvent (s : State) : RespondsAtMostOnce s s.timeoutEvent := by
  rcases timeoutEvent_cases s with ⟨-, -, -, he⟩ | ⟨-, he⟩ <;> rw [he]
  · exact .inr ⟨.transportTimeout, _, rfl⟩
  · exact .inl rfl

theorem respondsAtMostOnce_step {s t : State} (h : step s = .next t) : RespondsAtMostOnce s t := by
  rcases step_cases h with ⟨-, hc⟩ | ⟨w, -, rfl⟩ | ⟨v, -, rfl⟩ | ⟨-, rfl⟩ | ⟨-, rfl⟩ | ⟨-, rfl⟩ | ⟨-, rfl⟩
  · exact respondsAtMostOnce_coreStep (s := s.popMove) hc
  · exact .inl rfl
  · exact .inl rfl
  · exact .inl (by simp)
  · exact respondsAtMostOnce_delayEndEvent s.popMove
  · exact respondsAtMostOnce_timeoutEvent s.popMove
  · exact .inl rfl

/-- Settles O52: a response carries one of the five status codes in its top byte. -/
theorem atMostOneResponsePerStep : Obligations.AtMostOneResponsePerStep := by
  intro s t h
  rcases respondsAtMostOnce_step h with hsame | ⟨st, d, hone⟩
  · exact .inl hsame
  · exact .inr ⟨_, hone, (responseWord_status st d).symm ▸ status_code_le st⟩

/-! ### The runs of a SEND and of a FADE_STEP (R85, R108, R115, R145) -/

theorem nextMove_of_cons {s : State} {m : Move} {moves : List Move} (h : s.schedule = m :: moves) : s.nextMove = m := by
  simp [State.nextMove, h]

/-- `s` with a command of mode `m` accepted, the words after it at the port and the moves to come. -/
def State.accepted (s : State) (m : Mode) (rest : List Word) (moves : List Move) : State :=
  { s with port := rest, schedule := moves, mode := m, ctl := .exec }

theorem exec_runningCommand_of_idle {s : State} (h : s.ctl = .idle) (m : Mode) :
    exec (runningCommand m) s = .next (s.start m) := by
  cases m <;> exact congrArg _ (multiStep_of_idle h _ _)

/-- The acceptance of SEND or FADE_STEP, `PENDING_LATE = 0` (R85). -/
theorem step_accepts {s : State} {m : Mode} {w : Word} {rest : List Word} {moves : List Move} (hm : m ≠ .fadeRun)
    (hdecode : decode w = .command (runningCommand m)) (hi : s.ctl = .idle) (hlate : s.pendingLate = false)
    (hp : s.port = w :: rest) (hs : s.schedule = .core :: moves) : step s = .next (s.accepted m rest moves) := by
  rw [step_of_core (nextMove_of_cons hs), coreStep_of_command (s := s.popMove) hi hp hdecode,
    exec_runningCommand_of_idle (s := { s.popMove with port := rest }) hi,
    start_of_ready (s := { s.popMove with port := rest }) hlate, if_neg hm]
  simp only [State.accepted, State.popMove, hs, List.tail_cons]

/-- In WAIT the core's step is the consume (R108). -/
theorem coreStep_of_wait {s : State} (hw : s.ctl = .wait) : coreStep s = .next s.consume := by
  rcases running_cases (.inr hw) with ⟨he, -⟩ | ⟨he, -⟩ | ⟨he, -⟩ | ⟨-, hc⟩
  · simp [hw] at he
  · simp [hw] at he
  · simp [hw] at he
  · exact hc

theorem sendFrame_schedule (s : State) : s.sendFrame.schedule = s.schedule := rfl

/-- From a frame just sent, the completion and the core's next step lead through the consume (R108, R179). -/
theorem run_sendFrame {s : State} {moves : List Move} (hd : s.done = false) (hs : s.schedule = .completion :: .core :: moves) :
    Host.Core.run Sys2Proof.core 2 s.sendFrame =
      .next (State.consume { s.sendFrame with schedule := moves, outstanding := false, done := true }) := by
  have hcompletion : step s.sendFrame =
      .next { s.sendFrame with schedule := .core :: moves, outstanding := false, done := true } := by
    rw [step_of_completion (s := s.sendFrame) (nextMove_of_cons hs), completionEvent_of_waiting (s := s.sendFrame.popMove) ⟨rfl, hd⟩]
    simp only [State.popMove, sendFrame_schedule, hs, List.tail_cons]
  rw [run_of_step hcompletion, run_of_step ((step_of_core rfl).trans (coreStep_of_wait rfl))]
  rfl

/-- Settles O27: acceptance and frame send, then completion and consume. -/
theorem sendRunsToItsResponse : Obligations.SendRunsToItsResponse := by
  intro s more hi hd hlate hhead hs
  obtain ⟨rest, hp⟩ := List.head?_eq_some_iff.1 hhead
  have haccept := step_accepts (m := .send) nofun (decode_encode .send) hi ((pendingLate_eq_false_iff s).2 hlate) hp hs
  have hsend : step (s.accepted .send rest (.core :: .completion :: .core :: more)) =
      .next (s.accepted .send rest (.completion :: .core :: more)).sendFrame := rfl
  refine ⟨_, (run_of_step haccept 3).trans ((run_of_step hsend 2).trans (run_sendFrame hd rfl)), ?_, ?_⟩
  · exact pulseSequence_carriesFrame s.cfg s.bri s.leds
  · rw [consume_of_done_send rfl rfl]
    simp only [State.accepted, hi, hd, hp, List.tail_cons]
    rfl

/-- FADE_STEP's step from EXEC advances every LED, the levels being legal, and sends the frame (R144, R145). -/
theorem coreStep_of_fadeStep {s : State} (he : s.ctl = .exec) (hm : s.mode = .fadeStep)
    (hlevels : ∀ led ∈ s.leds, led.level ≠ 3) :
    coreStep s = .next (State.sendFrame { s with leds := (advanceAll s.cfg.fadeStep s.leds).1 }) := by
  rw [coreStep_of_running (.inl he), hm, runningCommand, exec_fadeStep, ← hm, multiStep_of_exec he,
    fadeIteration_of_no_fault (advanceAll_of_legal hlevels).1]

/-- Settles O28: acceptance and fade iteration, completion and consume, then the delay end. -/
theorem fadeStepRunsToItsResponse : Obligations.FadeStepRunsToItsResponse := by
  intro s more hi hd hlate hlevels hhead hs
  obtain ⟨rest, hp⟩ := List.head?_eq_some_iff.1 hhead
  have haccept := step_accepts (m := .fadeStep) nofun (decode_encode .fadeStep) hi ((pendingLate_eq_false_iff s).2 hlate)
    hp hs
  have hfade := (step_of_core (s := s.accepted .fadeStep rest (.core :: .completion :: .core :: .delayEnd :: more)) rfl).trans
    (coreStep_of_fadeStep rfl rfl hlevels)
  have hsent := run_sendFrame (s := { s.accepted .fadeStep rest (.completion :: .core :: .delayEnd :: more) with
    leds := (advanceAll s.cfg.fadeStep s.leds).1 }) hd rfl
  rw [consume_of_done_fade rfl (by exact (nofun : Mode.fadeStep ≠ .send))] at hsent
  refine ⟨_, (run_of_step haccept 4).trans ((run_of_step hfade 3).trans ((run_add 2 1 hsent).trans
    (run_of_step (step_of_delayEnd rfl) 0))), ?_, ?_, ?_⟩
  · exact (advanceAll_of_legal hlevels).2
  · exact pulseSequence_carriesFrame s.cfg s.bri (advanceAll s.cfg.fadeStep s.leds).1
  · rw [delayEndEvent_of_fadeStep rfl rfl]
    simp only [State.accepted, hi, hd, hp, List.tail_cons]
    rfl

/-! ### The assembly language (R83, R84) -/

/-- What a program assembles to: an error where a number is outside its field's range, and otherwise the moves of the lines
that its lines stand for, in order. -/
theorem assemble_eq (n : Nat) (lines : List Asm) :
    assemble n lines =
      if lines.all Asm.wellFormed then (lines.flatMap (expandLine n)).mapM lineMove else none := by
  induction lines with
  | nil => rfl
  | cons line rest ih =>
    rw [assemble, ih, List.all_cons, List.flatMap_cons, List.mapM_append]
    cases hline : line.wellFormed <;> cases hrest : rest.all Asm.wellFormed
    · simp
    · simp
    · simp
    · cases (expandLine n line).mapM lineMove <;> cases (rest.flatMap (expandLine n)).mapM lineMove <;> rfl

theorem assemble_of_wellFormed {lines : List Asm} (h : ∀ line ∈ lines, line.wellFormed = true) (n : Nat) :
    assemble n lines = (lines.flatMap (expandLine n)).mapM lineMove := by
  rw [assemble_eq, if_pos (List.all_eq_true.2 h)]

/-- R83: an ill-formed line is an error wherever it stands. -/
theorem assemble_of_illFormed {line : Asm} (h : line.wellFormed = false) (n : Nat) (before more : List Asm) :
    assemble n (before ++ line :: more) = none := by
  simp [assemble_eq, h]

/-- Lines that stand for themselves are their own expansion. -/
theorem flatMap_expandLine_of_self {n : Nat} {lines : List Asm} (h : ∀ line ∈ lines, expandLine n line = [line]) :
    lines.flatMap (expandLine n) = lines := by
  rw [List.flatMap_congr h, List.flatMap_singleton']

/-- A well-formed line that stands for itself assembles to its move. -/
theorem assemble_singleton {n : Nat} {line : Asm} {move : Move} (h : line.wellFormed = true)
    (hexpand : expandLine n line = [line]) (hmove : lineMove line = some move) : assemble n [line] = some [move] := by
  simp [assemble_eq, h, hexpand, hmove]

/-- A well-formed line whose move offers a command's encoding offers a word that decodes to the command. -/
theorem assemble_command {n : Nat} {line : Asm} {i : Instr} (h : line.wellFormed = true)
    (hexpand : expandLine n line = [line]) (hmove : lineMove line = some (.offer (encode i))) :
    ∃ w, assemble n [line] = some [.offer w] ∧ decode w = .command i :=
  ⟨encode i, assemble_singleton h hexpand hmove, decode_encode i⟩

/-- Settles O56: a line in range offers its command's encoding, and one number out of range fails the whole program. -/
theorem assembledLinesDecodeToTheirCommands : Obligations.AssembledLinesDecodeToTheirCommands := by
  refine ⟨fun n line i h => ?_, fun n idx r g b hidx hr hg hb => ?_, fun n lvl h => ?_, fun n idx h => ?_, fun n v h => ?_,
    fun n level => rfl, fun n idx r g b before more h => ?_, fun n lvl before more h => ?_,
    fun n idx before more h => ?_, fun n v before more h => ?_⟩
  · simp only [List.mem_cons, Prod.mk.injEq, List.not_mem_nil, or_false] at h
    rcases h with ⟨rfl, rfl⟩ | ⟨rfl, rfl⟩ | ⟨rfl, rfl⟩ | ⟨rfl, rfl⟩ | ⟨rfl, rfl⟩ <;> exact assemble_command rfl rfl rfl
  · obtain ⟨w, ha, hd⟩ := assemble_command (n := n) (line := .setColor idx r g b)
      (by simp [Asm.wellFormed, hidx, hr, hg, hb]) rfl rfl
    exact ⟨w, _, ha, hd, _, _, _, _, rfl, Nat.mod_eq_of_lt hidx, Nat.mod_eq_of_lt hr,
      Nat.mod_eq_of_lt hg, Nat.mod_eq_of_lt hb⟩
  · obtain ⟨w, ha, hd⟩ := assemble_command (n := n) (line := .setBrightness lvl) (by simp [Asm.wellFormed, h]) rfl rfl
    exact ⟨w, _, ha, hd, Nat.mod_eq_of_lt h⟩
  · obtain ⟨w, ha, hd⟩ := assemble_command (n := n) (line := .getColor idx) (by simp [Asm.wellFormed, h]) rfl rfl
    exact ⟨w, _, ha, hd, Nat.mod_eq_of_lt h⟩
  · exact ⟨_, assemble_singleton (by simpa [Asm.wellFormed] using h) rfl rfl, Nat.mod_eq_of_lt h⟩
  · exact assemble_of_illFormed (by
      simp only [Asm.wellFormed, Bool.and_eq_false_iff, decide_eq_false_iff_not]
      omega) n before more
  · exact assemble_of_illFormed (by simpa [Asm.wellFormed] using h) n before more
  · exact assemble_of_illFormed (by simpa [Asm.wellFormed] using h) n before more
  · exact assemble_of_illFormed (by simpa [Asm.wellFormed] using h) n before more

/-- A line whose expansion is well-formed and expands no further assembles as its expansion. -/
theorem assemble_expandLine {n : Nat} {line : Asm} (h : line.wellFormed = true)
    (hwf : ∀ l ∈ expandLine n line, l.wellFormed = true) (hself : ∀ l ∈ expandLine n line, expandLine n l = [l]) :
    assemble n [line] = assemble n (expandLine n line) := by
  rw [assemble_of_wellFormed (by simpa using h), assemble_of_wellFormed hwf, flatMap_expandLine_of_self hself,
    List.flatMap_singleton]

/-- Settles O57: the first three expand to commands; CLEAR and the lines of its expansion expand to the same commands. -/
theorem pseudoInstructionsAssembleAsTheirExpansions : Obligations.PseudoInstructionsAssembleAsTheirExpansions := by
  refine ⟨fun n r g b hn hr hg hb => ?_, fun n lvl h => ?_, fun n k => ?_, fun n => ?_⟩
  · apply assemble_expandLine (line := .setAll r g b)
    · simp [Asm.wellFormed, hr, hg, hb]
    · intro l hl
      obtain ⟨i, hi, rfl⟩ := List.mem_map.1 hl
      have hidx : i < 65536 := (List.mem_range.1 hi).trans_le hn
      simp [Asm.wellFormed, hidx, hr, hg, hb]
    · intro l hl
      obtain ⟨i, -, rfl⟩ := List.mem_map.1 hl
      rfl
  · apply assemble_expandLine (line := .showAt lvl) <;> simp [expandLine, Asm.wellFormed, h]
  · apply assemble_expandLine (line := .fadeSteps k) <;> simp [expandLine, Asm.wellFormed]
  · rw [assemble_of_wellFormed (by simp [Asm.wellFormed]), assemble_of_wellFormed (by simp [Asm.wellFormed])]
    simp [expandLine]

end Sys2Proof.Machine
end

section
/-! PROOFS. The statements on the Frame Encoder (40_frame_encoder.md): the laws of the brightness scaler, what a render depends
on, and the frame that a fade iteration sends. -/

namespace Sys2Proof.Machine

open Sys2Proof

/-! ### The brightness scaler (R100, R101) -/

theorem scale_comm (c b : Byte) : scale c b = scale b c := by
  rw [scale, scale, Nat.mul_comm]

/-- R101: no brightness raises a channel, since it is at most 255. -/
theorem scale_le_left (c b : Byte) : (scale c b).toNat ≤ c.toNat := by
  have hb : b.toNat ≤ 255 := Nat.le_of_lt_succ b.isLt
  rw [scale_toNat]
  exact Nat.div_le_of_le_mul ((Nat.mul_le_mul_left _ hb).trans_eq (Nat.mul_comm _ _))

theorem scale_mono_left {c c' : Byte} (h : c.toNat ≤ c'.toNat) (b : Byte) : (scale c b).toNat ≤ (scale c' b).toNat := by
  rw [scale_toNat, scale_toNat]
  exact Nat.div_le_div_right (Nat.mul_le_mul_right _ h)

theorem scale_255 (c : Byte) : scale c 255 = c := by
  apply BitVec.eq_of_toNat_eq
  rw [scale_toNat]
  exact Nat.mul_div_cancel _ (by decide)

theorem scale_zero (c : Byte) : scale c 0 = 0 := by
  simp [scale]

/-- Settles O30: each law of the second argument is that of the first through the symmetry. -/
theorem scalerLaws : Obligations.ScalerLaws := by
  refine ⟨scale_toNat, fun c b => ⟨?_, ?_, scale_comm c b⟩, fun c c' b h => scale_mono_left h b, fun c b b' h => ?_,
    fun c => ⟨scale_255 c, scale_zero c, ?_⟩, by decide⟩
  · exact Nat.le_of_lt_succ (scale c b).isLt
  · exact le_min (scale_le_left c b) (scale_comm c b ▸ scale_le_left b c)
  · rw [scale_comm c b, scale_comm c b']
    exact scale_mono_left h c
  · rw [scale_comm, scale_zero]

/-! ### A render depends on the colours and the brightness (R106) -/

/-- In EXEC a command takes the core's own step, or it is not the running one and leaves the state. -/
theorem exec_eq_coreStep_or_of_exec {s : State} (he : s.ctl = .exec) (i : Instr) :
    exec i s = coreStep s ∨ exec i s = .next s := by
  have hidle : s.ctl ≠ .idle := by simp [he]
  by_cases hi : i = runningCommand s.mode
  · exact .inl (hi ▸ (coreStep_of_running (.inl he)).symm)
  · refine .inr ?_
    by_cases hmulti : ∃ m, i = runningCommand m
    · obtain ⟨m, rfl⟩ := hmulti
      have hm : s.mode ≠ m := fun h => hi (h ▸ rfl)
      cases m <;> exact congrArg _ (multiStep_of_not_running hidle (.inl hm) _)
    · exact exec_of_not_idle hidle (fun h => hmulti ⟨.send, h⟩) (fun h => hmulti ⟨.fadeStep, h⟩)
        (fun h => hmulti ⟨.fadeRun, h⟩)

/-- R104, R109: a step of the core from EXEC to WAIT is a frame send, so PB holds the pulse sequence of the colours it leaves. -/
theorem coreStep_pb_of_exec_to_wait {s t : State} (he : s.ctl = .exec) (h : coreStep s = .next t) (hw : t.ctl = .wait) :
    t.pb = pulseSequence s.cfg s.bri (t.leds.map Led.color) := by
  rcases running_cases (.inl he) with ⟨-, -, hr⟩ | ⟨-, -, -, hr⟩ | ⟨-, -, hr⟩ | ⟨hwait, -⟩
  · obtain rfl := Host.Outcome.next.inj (hr.symm.trans h)
    rfl
  · obtain rfl := Host.Outcome.next.inj (hr.symm.trans h)
    cases hw
  · obtain rfl := Host.Outcome.next.inj (hr.symm.trans h)
    rcases fadeIteration_cases s with ⟨-, hi⟩ | ⟨-, hi⟩ <;> rw [hi] at hw ⊢
    · cases hw
    · rfl
  · simp [he] at hwait

/-- The same of any command from EXEC: one that is not running does not come to WAIT. -/
theorem exec_pb_of_exec_to_wait {s t : State} {i : Instr} (he : s.ctl = .exec) (h : exec i s = .next t) (hw : t.ctl = .wait) :
    t.pb = pulseSequence s.cfg s.bri (t.leds.map Led.color) := by
  rcases exec_eq_coreStep_or_of_exec he i with hr | hr
  · exact coreStep_pb_of_exec_to_wait he (hr.symm.trans h) hw
  · obtain rfl := Host.Outcome.next.inj (hr.symm.trans h)
    simp [he] at hw

/-- Settles O31: both buffers are the same pulse sequence. -/
theorem renderDependsOnColoursAndBrightnessOnly : Obligations.RenderDependsOnColoursAndBrightnessOnly := by
  intro i i' s s' t t' he he' h h' hw hw' hcfg hbri hcolours
  rw [exec_pb_of_exec_to_wait he h hw, exec_pb_of_exec_to_wait he' h' hw', hcfg, hbri, hcolours]

/-! ### The fade iteration (R144) -/

/-- R145, R146: in EXEC the running FADE_STEP, and the running FADE_RUN with CANCEL = 0, take one fade iteration. -/
theorem exec_of_running_fade {s : State} {i : Instr} (he : s.ctl = .exec)
    (h : (i = .fadeStep ∧ s.mode = .fadeStep) ∨ (i = .fadeRun ∧ s.mode = .fadeRun ∧ s.cancel = false)) :
    exec i s = .next s.fadeIteration := by
  rcases h with ⟨rfl, hm⟩ | ⟨rfl, hm, hcancel⟩
  · rw [exec_fadeStep, ← hm, multiStep_of_exec he]
  · rw [exec_fadeRun, ← hm, multiStep_of_exec he, runTop_of_no_cancel hcancel]

/-- Settles O23: with legal levels the iteration meets no fault, so it is the frame send of the advanced LEDs. -/
theorem fadeIterationAdvancesEveryLedAndSends : Obligations.FadeIterationAdvancesEveryLedAndSends := by
  intro s i he hrunning hlevels
  obtain ⟨hnofault, hadvanced⟩ := advanceAll_of_legal (step := s.cfg.fadeStep) hlevels
  have hstep := (exec_of_running_fade he hrunning).trans (congrArg _ (fadeIteration_of_no_fault hnofault))
  exact ⟨_, hstep, hadvanced, pulseSequence_carriesFrame s.cfg s.bri (advanceAll s.cfg.fadeStep s.leds).1, rfl⟩

end Sys2Proof.Machine
end

section
/-! PROOFS. The statements on the Fade Controller (41_fade_controller.md): the halt of a fade at an illegal level, the sum of the
moving channels and the length of a leg, the end of the delay, and the colours after reset. -/

namespace Sys2Proof.Machine

open Sys2Proof

/-! ### The fade that meets an illegal level (R142, R143, R176) -/

/-- Settles O24: the advance of the store faults at the first illegal level, and the fault ends the iteration. -/
theorem illegalLevelHaltsTheFade : Obligations.IllegalLevelHaltsTheFade := by
  intro s i pre post bad he hrunning hleds hpre hbad
  obtain ⟨pre', hadv, hadvanced⟩ := advanceAll_of_illegal (step := s.cfg.fadeStep) (post := post) hpre hbad
  rw [← hleds] at hadv
  have hfault : (advanceAll s.cfg.fadeStep s.leds).2 = true := congrArg Prod.snd hadv
  refine ⟨_, pre', exec_of_running_fade he hrunning, hadvanced, ?_⟩
  rw [fadeIteration_of_fault hfault, hadv]
  rfl

/-! ### The channels of a level (R140, R141) -/

/-- R141 for every legal level at once: the falling channel falls by STEP and stops at 0, the rising one rises by STEP and stops
at 255, the third stands, and the level goes on when both have stopped. -/
theorem advance_channels {step : Byte} {led : Led} {c : Color} {l : Level} (h : led.advance step = some ⟨c, l⟩) :
    fallingValue ⟨c, led.level⟩ = fallingValue led - step.toNat ∧
    risingValue ⟨c, led.level⟩ = min (risingValue led + step.toNat) 255 ∧
    untouchedValue ⟨c, led.level⟩ = untouchedValue led ∧
    l = if fallingValue ⟨c, led.level⟩ = 0 ∧ risingValue ⟨c, led.level⟩ = 255 then nextLevel led.level else led.level := by
  obtain ⟨h0, h1, h2, h3⟩ := advance_advancesTo h
  rcases level_cases led.level with hl | hl | hl | hl
  case' inl => obtain ⟨hf, hr, hu, hnext⟩ := h0 hl
  case' inr.inl => obtain ⟨hf, hr, hu, hnext⟩ := h1 hl
  case' inr.inr.inl => obtain ⟨hf, hr, hu, hnext⟩ := h2 hl
  case' inr.inr.inr => exact absurd hl h3
  all_goals
    simpa [fallingValue, risingValue, untouchedValue, nextLevel, hl, hf, hr, BitVec.toNat_eq (n := 8)]
      using And.intro hu hnext

/-- Settles O32: what the falling channel loses, down to 0, the rising one gains, up to 255. -/
theorem advanceKeepsTheChannelSum : Obligations.AdvanceKeepsTheChannelSum := by
  intro step led led' _ hsum h
  obtain ⟨hf, hr, -, -⟩ := advance_channels h
  omega

/-- R140: the next level moves the channels one place round: rising to falling, untouched to rising, falling to untouched. -/
theorem channels_nextLevel {l : Level} (h : l ≠ 3) (c : Color) :
    fallingValue ⟨c, nextLevel l⟩ = risingValue ⟨c, l⟩ ∧
    risingValue ⟨c, nextLevel l⟩ = untouchedValue ⟨c, l⟩ ∧
    untouchedValue ⟨c, nextLevel l⟩ = fallingValue ⟨c, l⟩ := by
  rcases level_cases l with rfl | rfl | rfl | hl
  · exact ⟨rfl, rfl, rfl⟩
  · exact ⟨rfl, rfl, rfl⟩
  · exact ⟨rfl, rfl, rfl⟩
  · exact absurd hl h

/-! ### The legs of the colour wheel (R148) -/

/-- `mid` stands on the leg of `led`: its level, its untouched channel, and 255 split between the moving channels, of which the
falling one still has `f`. -/
def OnLeg (led mid : Led) (f : Nat) : Prop :=
  mid.level = led.level ∧ untouchedValue mid = untouchedValue led ∧ fallingValue mid = f ∧ risingValue mid + f = 255

/-- While more than STEP is left to fall, an advance stays on the leg. -/
theorem advance_onLeg {step : Byte} {led mid : Led} {f : Nat} (hlevel : led.level ≠ 3) (hleg : OnLeg led mid f)
    (hf : step.toNat < f) : ∃ mid', mid.advance step = some mid' ∧ OnLeg led mid' (f - step.toNat) := by
  obtain ⟨hl, hunt, hfall, hrise⟩ := hleg
  obtain ⟨⟨c, l⟩, hadv⟩ := Option.ne_none_iff_exists'.1 (mt (advance_eq_none_iff step mid).1 (hl ▸ hlevel))
  obtain ⟨hfall', hrise', hunt', hlevel'⟩ := advance_channels hadv
  rw [if_neg (by omega)] at hlevel'
  obtain rfl : l = mid.level := hlevel'
  exact ⟨_, hadv, hl, hunt'.trans hunt, by omega, by omega⟩

/-- When at most STEP is left to fall, an advance ends the leg and starts the next. -/
theorem advance_endsLeg {step : Byte} {led mid : Led} {f : Nat} (hlevel : led.level ≠ 3) (hleg : OnLeg led mid f)
    (hf : f ≤ step.toNat) : ∃ last, mid.advance step = some last ∧ last.level = nextLevel led.level ∧
      fallingValue last = 255 ∧ risingValue last = untouchedValue led ∧ untouchedValue last = 0 := by
  obtain ⟨hl, hunt, hfall, hrise⟩ := hleg
  rw [← hl] at hlevel
  obtain ⟨⟨c, l⟩, hadv⟩ := Option.ne_none_iff_exists'.1 (mt (advance_eq_none_iff step mid).1 hlevel)
  obtain ⟨hfall', hrise', hunt', hlevel'⟩ := advance_channels hadv
  rw [if_pos (by omega)] at hlevel'
  obtain rfl : l = nextLevel mid.level := hlevel'
  obtain ⟨hfall'', hrise'', hunt''⟩ := channels_nextLevel hlevel c
  exact ⟨_, hadv, hl ▸ rfl, by omega, by omega, by omega⟩

/-- After `k` advances, the last of which did not reach the end of the leg, `k * STEP` has fallen. -/
theorem advances_onLeg {step : Byte} {led : Led} (hlevel : led.level ≠ 3) (hsum : fallingValue led + risingValue led = 255)
    (k : Nat) (hk : k = 0 ∨ step.toNat * k < fallingValue led) :
    ∃ mid, advances step led k = some mid ∧ OnLeg led mid (fallingValue led - step.toNat * k) := by
  induction k with
  | zero => exact ⟨led, rfl, rfl, rfl, rfl, by omega⟩
  | succ k ih =>
    have hlt : step.toNat * k + step.toNat < fallingValue led := hk.resolve_left k.succ_ne_zero
    obtain ⟨mid, hmid, hleg⟩ := ih (.inr (by omega))
    obtain ⟨mid', hadv, hleg'⟩ := advance_onLeg (step := step) hlevel hleg (by omega)
    refine ⟨mid', by simp [advances, hmid, hadv], ?_⟩
    rwa [Nat.sub_sub] at hleg'

/-- Fewer advances than `ceil(f / d)` do not bring a channel of `f` to 0, that many do. -/
theorem lt_ceil_div_iff {d : Nat} (hd : 0 < d) (f k : Nat) : k < (f + d - 1) / d ↔ d * k < f := by
  rw [← Nat.ceilDiv_eq_add_pred_div, ← not_le, ceilDiv_le_iff_le_mul hd, not_le]

/-- Settles O33: the advances before the last stay on the leg, and at the last one at most STEP is left to fall. -/
theorem legTakesCeilOfFallingOverStep : Obligations.LegTakesCeilOfFallingOverStep := by
  intro step led hstep hlevel hsum
  have hpos : 0 < step.toNat := Nat.pos_of_ne_zero fun h => hstep (BitVec.eq_of_toNat_eq h)
  have hceil := lt_ceil_div_iff hpos (fallingValue led)
  have honLeg : ∀ k, k < max 1 ((fallingValue led + step.toNat - 1) / step.toNat) →
      ∃ mid, advances step led k = some mid ∧ OnLeg led mid (fallingValue led - step.toNat * k) := fun k hk =>
    advances_onLeg hlevel hsum k ((lt_max_iff.1 hk).imp Nat.lt_one_iff.1 (hceil k).1)
  refine ⟨fun k hk => (honLeg k hk).imp fun mid ⟨hmid, hsame, _⟩ => ⟨hmid, hsame⟩, ?_⟩
  obtain ⟨k, hlast⟩ : ∃ k, max 1 ((fallingValue led + step.toNat - 1) / step.toNat) = k + 1 :=
    Nat.exists_eq_succ_of_ne_zero (by omega)
  obtain ⟨mid, hmid, hleg⟩ := honLeg k (by omega)
  have hreached : fallingValue led ≤ step.toNat * k + step.toNat := not_lt.1 fun h => by
    have := (hceil (k + 1)).2 h
    omega
  obtain ⟨last, hadv, hend⟩ := advance_endsLeg (step := step) hlevel hleg (by omega)
  exact ⟨last, by simp [hlast, advances, hmid, hadv], hend⟩

/-! ### The end of the delay (R180) -/

/-- Settles O35: both are the delay-end event by MODE; the 32-bit increment is the one modulo 2^32. -/
theorem delayEndEffect : Obligations.DelayEndEffect := by
  intro s hmove hdelay
  refine ⟨fun hm => ?_, fun hm => ?_⟩
  · rw [step_of_delayEnd hmove, delayEndEvent_of_fadeStep (s := s.popMove) hdelay hm]
    rfl
  · have hiter : s.iter + 1 = BitVec.ofNat 32 ((s.iter.toNat + 1) % 2 ^ 32) := by
      apply BitVec.eq_of_toNat_eq
      simp
    rw [step_of_delayEnd hmove, delayEndEvent_of_fadeRun (s := s.popMove) hdelay hm, ← hiter]
    rfl

/-! ### The colours after reset (R149, R200) -/

/-- Settles O42: the first four indexes find the LEDs of the source's configuration, and 4 is N. -/
theorem resetHoldsTheInitialColours : Obligations.ResetHoldsTheInitialColours :=
  ⟨⟨_, exec_getColor_of_getElem? rfl rfl, by decide⟩, ⟨_, exec_getColor_of_getElem? rfl rfl, by decide⟩,
    ⟨_, exec_getColor_of_getElem? rfl rfl, by decide⟩, ⟨_, exec_getColor_of_getElem? rfl rfl, by decide⟩,
    ⟨_, exec_getColor_of_le rfl (by decide), by decide⟩⟩

end Sys2Proof.Machine
end

section
/-! PROOFS. The statements on the exceptions (60_exceptions.md): a completion, a timeout and the two in one instant, and BUSY while
a late completion is owed. -/

namespace Sys2Proof.Machine

open Sys2Proof

/-! ### BUSY while a late completion is owed (R173) -/

/-- R85: in IDLE a command that renders is the acceptance of a multi-step command, by its MODE. -/
theorem exec_rendering_of_idle {s : State} {i : Instr} (hi : i = .send ∨ i = .fadeStep ∨ i = .fadeRun) (h : s.ctl = .idle) :
    ∃ m, exec i s = .next (s.start m) := by
  rcases hi with rfl | rfl | rfl
  · exact ⟨.send, congrArg _ (multiStep_of_idle h _ _)⟩
  · exact ⟨.fadeStep, congrArg _ (multiStep_of_idle h _ _)⟩
  · exact ⟨.fadeRun, congrArg _ (multiStep_of_idle h _ _)⟩

/-- Settles O20: the acceptance meets `PENDING_LATE = 1`, which the late completion clears without leaving IDLE. -/
theorem renderingCommandsAreBusyAfterATimeout : Obligations.RenderingCommandsAreBusyAfterATimeout := by
  intro s i hrender hi ht hbit
  have hlate : s.pendingLate = true := (pendingLate_eq_true_iff s).2 ⟨ht, hbit⟩
  refine ⟨?_, fun hmove => ?_⟩
  · obtain ⟨m, hexec⟩ := exec_rendering_of_idle hrender hi
    rw [hexec, start_of_busy hlate]
    rfl
  · have hstep := step_of_completion hmove
    rw [completionEvent_of_late (s := s.popMove) (by simp [hi]) (by simp [hi]) hlate] at hstep
    obtain ⟨m, hexec⟩ := exec_rendering_of_idle
      (s := { s.popMove with outstanding := false, pendingLateBit := false }) hrender hi
    rw [start_of_ready ((pendingLate_eq_false_iff _).2 (.inr rfl))] at hexec
    exact ⟨_, _, hstep, rfl, hi, hexec, rfl, rfl⟩

/-! ### The timeout (R170, R174, R181) -/

theorem step_of_timeout {s : State} (h : s.nextMove = .timeout) : step s = .next s.popMove.timeoutEvent := by
  simp [step, h, takeMove]

/-- A response word as a number (R80). -/
theorem responseWord_eq_ofNat (st : Status) (d : Data) :
    responseWord st d = BitVec.ofNat 64 (st.code.toNat * 2 ^ 56 + d.toNat) := by
  rw [← responseWord_toNat, BitVec.ofNat_toNat, BitVec.setWidth_eq]

/-- A status a block without HAS_TIMEOUT answers with: all but BUSY and TRANSPORT_TIMEOUT (R170). -/
def Status.NeedsNoTimeout (st : Status) : Prop := st ≠ .busy ∧ st ≠ .transportTimeout

theorem Status.needsNoTimeout_ok : Status.NeedsNoTimeout .ok := ⟨nofun, nofun⟩

theorem Status.NeedsNoTimeout.code_lt {st : Status} (h : st.NeedsNoTimeout) : st.code.toNat < 3 := by
  obtain ⟨hbusy, htimeout⟩ := h
  cases st with
  | ok => decide
  | outOfRange => decide
  | illegalCommand => decide
  | busy => exact absurd rfl hbusy
  | transportTimeout => exact absurd rfl htimeout

/-- The response record stands, or one response that needs no timeout is added to it. -/
def RespondsWithoutTimeout (s t : State) : Prop :=
  t.responses = s.responses ∨ ∃ st d, Status.NeedsNoTimeout st ∧ t.responses = s.responses ++ [responseWord st d]

/-- R170, R173: without HAS_TIMEOUT the core answers neither BUSY nor TRANSPORT_TIMEOUT, since `PENDING_LATE` reads 0. -/
theorem coreStep_responses_of_no_timeout {s t : State} (ht : s.cfg.hasTimeout = false) (h : coreStep s = .next t) :
    RespondsWithoutTimeout s t := by
  have hlate : s.pendingLate = false := (pendingLate_eq_false_iff s).2 (.inl ht)
  rcases coreStep_results h with ⟨-, rfl⟩ | ⟨w, rest, st, d, -, -, hst, hbusy, rfl⟩ |
    ⟨w, rest, idx, r, g, b, -, -, -, -, rfl⟩ | ⟨w, rest, lvl, -, -, -, rfl⟩ | ⟨w, rest, m, -, -, -, rfl⟩ | ⟨-, -, rfl⟩ |
    ⟨-, -, -, rfl⟩ | ⟨-, -, -, rfl⟩ | ⟨-, -, -, rfl⟩ | ⟨-, -, -, rfl⟩ | ⟨-, -, -, rfl⟩
  · exact .inl rfl
  · exact .inr ⟨st, d, ⟨fun hb => Bool.eq_false_iff.1 hlate (hbusy hb), hst⟩, rfl⟩
  · exact .inr ⟨.ok, 0, Status.needsNoTimeout_ok, rfl⟩
  · exact .inr ⟨.ok, 0, Status.needsNoTimeout_ok, rfl⟩
  · exact .inl rfl
  · exact .inl rfl
  · exact .inr ⟨.ok, s.iterData, Status.needsNoTimeout_ok, rfl⟩
  · exact .inl rfl
  · exact .inl rfl
  · exact .inr ⟨.ok, 0, Status.needsNoTimeout_ok, rfl⟩
  · exact .inl rfl

/-- The same of a whole step: of the other agents only the delay end is answered, with OK, since the timeout does not happen. -/
theorem step_responses_of_no_timeout {s t : State} (ht : s.cfg.hasTimeout = false) (h : step s = .next t) :
    RespondsWithoutTimeout s t := by
  rcases step_cases h with ⟨-, hc⟩ | ⟨w, -, rfl⟩ | ⟨v, -, rfl⟩ | ⟨-, rfl⟩ | ⟨-, rfl⟩ | ⟨-, rfl⟩ | ⟨-, rfl⟩
  · exact coreStep_responses_of_no_timeout (s := s.popMove) ht hc
  · exact .inl rfl
  · exact .inl rfl
  · exact .inl (by simp)
  · rcases delayEndEvent_cases s.popMove with ⟨-, -, he⟩ | ⟨-, -, he⟩ | ⟨-, he⟩ <;> rw [he]
    · exact .inr ⟨.ok, 0, Status.needsNoTimeout_ok, rfl⟩
    · exact .inl rfl
    · exact .inl rfl
  · rw [timeoutEvent_of_no_timeout (s := s.popMove) ht]
    exact .inl rfl
  · exact .inl rfl

/-- R28: without HAS_TIMEOUT no step sets PENDING_LATE, the timeout being its one setter. -/
theorem step_pendingLateBit_of_no_timeout {s t : State} (ht : s.cfg.hasTimeout = false) (h : step s = .next t)
    (hbit : s.pendingLateBit = false) : t.pendingLateBit = false := by
  obtain ⟨-, -, hset, -⟩ := flagWriters s t h
  refine Bool.eq_false_iff.2 fun hp => ?_
  obtain ⟨-, htimeout, -⟩ := hset hbit hp
  exact absurd htimeout (Bool.eq_false_iff.1 ht)

/-- Settles O36: the timeout's own effect, and for a block without it what every step answers and who sets PENDING_LATE. -/
theorem timeoutEffect : Obligations.TimeoutEffect := by
  refine ⟨fun s hmove ht hw hd => ?_, fun s t h ht => ⟨step_pendingLateBit_of_no_timeout ht h, fun r hr => ?_⟩⟩
  · have hdata : (if s.mode = .fadeRun then s.iterData else 0).toNat = if s.mode = .fadeRun then s.iter.toNat else 0 := by
      split
      · exact iterData_toNat s
      · rfl
    rw [step_of_timeout hmove, timeoutEvent_of_waiting (s := s.popMove) ht ⟨hw, hd⟩, ← hdata,
      ← show Status.transportTimeout.code.toNat = 0x04 from rfl, ← responseWord_eq_ofNat]
    rfl
  · rcases step_responses_of_no_timeout ht h with hsame | ⟨st, d, hst, hone⟩
    · simp [hsame] at hr
    · obtain rfl : responseWord st d = r := by simpa [hone] using hr
      rw [responseWord_status]
      exact hst.code_lt

/-! ### The completion, alone and with a timeout (R179, R183) -/

/-- Settles O34, from the equations of the completion event. -/
theorem completionEffect : Obligations.CompletionEffect := by
  intro s hmove
  rw [step_of_completion hmove]
  refine ⟨fun hh => ?_, fun hw hd => ?_, fun hh hw hlate => ?_, fun hh hw hlate => ?_⟩
  · rw [completionEvent_of_halted (s := s.popMove) hh]
    rfl
  · rw [completionEvent_of_waiting (s := s.popMove) ⟨hw, hd⟩]
    rfl
  · rw [completionEvent_of_late (s := s.popMove) hh hw ((pendingLate_eq_true_iff s).2 hlate)]
    rfl
  · have hnone : s.pendingLate = false := Bool.eq_false_iff.2 fun hp => hlate ((pendingLate_eq_true_iff s).1 hp)
    rw [completionEvent_of_spurious (s := s.popMove) hh hw hnone]
    rfl

/-- R183: completion and timeout in one instant are the completion. -/
theorem step_of_completionWithTimeout {s : State} (h : s.nextMove = .completionWithTimeout) :
    step s = .next s.popMove.completionEvent := by
  simp [step, h, takeMove, simultaneousEvent_eq]

/-- Settles O38: in a wait that completion sets DONE. -/
theorem completionBeatsTheTimeout : Obligations.CompletionBeatsTheTimeout := by
  intro s hmove hw hd
  rw [step_of_completionWithTimeout hmove, completionEvent_of_waiting (s := s.popMove) ⟨hw, hd⟩]
  rfl

end Sys2Proof.Machine
end

section
/-! PROOFS. The statements on the model's form of a step: an event that is not enabled changes nothing, and every step answers a
next state. -/

namespace Sys2Proof.Machine

open Sys2Proof

/-! ### Events that are not enabled (R178, R180, R181) -/

/-- Settles O37: a delay end outside DELAY leaves the state as it is, and so does a timeout that is not built or meets no wait. -/
theorem eventsNotEnabledChangeNothing : Obligations.EventsNotEnabledChangeNothing := by
  refine fun s => ⟨fun hmove hdelay => ?_, fun hmove hoff => ?_⟩
  · rw [step_of_delayEnd hmove, delayEndEvent_of_not_delay (s := s.popMove) hdelay]
    rfl
  · have hno : ¬(s.cfg.hasTimeout = true ∧ s.Waiting) := by
      rintro ⟨ht, hw, hd⟩
      rcases hoff with hnot | hnot | hdone
      · exact Bool.eq_false_iff.1 hnot ht
      · exact hnot hw
      · exact Bool.eq_false_iff.1 hd hdone
    rw [step_of_timeout hmove, timeoutEvent_of_not_enabled (s := s.popMove) hno]
    rfl

/-! ### Every step answers a next state -/

/-- The core refuses nothing: it stands, runs a command, or answers an illegal word (R29, R172). -/
theorem coreStep_answers_next (s : State) : ∃ t, coreStep s = .next t := by
  rcases coreStep_cases s with ⟨-, -, h⟩ | ⟨w, rest, i, -, -, -, h⟩ | ⟨w, rest, why, -, -, -, h⟩ | ⟨-, h⟩ | ⟨-, h⟩
  · exact ⟨_, h⟩
  · rw [h]
    exact exec_answers_next i _
  · exact ⟨_, h⟩
  · rw [h]
    exact exec_answers_next _ s
  · exact ⟨_, h⟩

theorem takeMove_answers_next (m : Move) (s : State) : ∃ t, takeMove m s = .next t := by
  cases m with
  | core => exact coreStep_answers_next s
  | offer w => exact ⟨_, rfl⟩
  | driveCancel level => exact ⟨_, rfl⟩
  | completion => exact ⟨_, rfl⟩
  | delayEnd => exact ⟨_, rfl⟩
  | timeout => exact ⟨_, rfl⟩
  | completionWithTimeout => exact ⟨_, rfl⟩
  | reset => exact ⟨_, rfl⟩

/-- Settles O46: of all moves only the core's runs commands, and every command answers a next state. -/
theorem everyMoveAnswersANextState : Obligations.EveryMoveAnswersANextState :=
  fun s => takeMove_answers_next s.nextMove s.popMove

end Sys2Proof.Machine
end
